-- ==== Sys2Proof/Word.lean ====
section
/-! DEFINITION. The three widths of data the block handles (R9: a byte is 8 bits, a word 16 bits, all unsigned; a nibble
is half a byte, R9 and R48). Byte order, fields and checksums stand in Decode.lean. -/

namespace Sys2Proof

/-- R9: a byte, 8 bits, unsigned. -/
abbrev Byte := BitVec 8

/-- R9: a word, 16 bits, unsigned. -/
abbrev Word := BitVec 16

/-- R9, R48: half a byte: a sensor address as the wire carries it, or the bits of a sub-command. -/
abbrev Nibble := BitVec 4

end Sys2Proof
end

