-- ==== Sys2Proof/Config.lean ====
section
/-! DEFINITION. The constants of R7, each named and never inlined (D27: the literals are unaudited, entry 27), and the open
parameters of R8 as one record (entry 4). -/

namespace Sys2Proof

/-- R7 `OVERHEAD`: the bytes of a frame that are not payload. -/
abbrev Config.overhead : Nat := 3
/-- R7 `MAX_LEN`: the largest valid length byte. -/
abbrev Config.maxLen : Nat := 0x20
/-- R7 `MIN_LEN`: the smallest valid length byte. -/
abbrev Config.minLen : Nat := 4
/-- R7 `MAX_PAYLOAD`: the size of the payload buffer. -/
abbrev Config.maxPayload : Nat := 29
/-- R7 `N_CHANNELS`. -/
abbrev Config.nChannels : Nat := 14
/-- R7 `MAX_SENSORS`. -/
abbrev Config.maxSensors : Nat := 10
/-- R7 `GAP_MS`, in milliseconds, compared with `>=`. -/
abbrev Config.gapMs : Nat := 3
/-- R7 `CMD_CHANNELS`. -/
abbrev Config.cmdChannels : Byte := 0x40
/-- R7 `SUB_DISCOVER`, the high nibble in place. -/
abbrev Config.subDiscover : Byte := 0x80
/-- R7 `SUB_TYPE`. -/
abbrev Config.subType : Byte := 0x90
/-- R7 `SUB_VALUE`. -/
abbrev Config.subValue : Byte := 0xA0
/-- R7 `LEN_DISCOVER_REPLY`. -/
abbrev Config.lenDiscoverReply : Byte := 0x04
/-- R7 `LEN_TYPE_REPLY`. -/
abbrev Config.lenTypeReply : Byte := 0x06
/-- R7 `LEN_VALUE_REPLY`. -/
abbrev Config.lenValueReply : Byte := 0x06
/-- R7 `TYPE_TRAILER`: opaque (U2). -/
abbrev Config.typeTrailer : Byte := 0x02
/-- R7 `CK_SEED`: the value a checksum is subtracted from. -/
abbrev Config.ckSeed : Word := 0xFFFF
/-- R75: the length byte of a sensor poll ("wire length is exactly 4"): one payload byte. -/
abbrev Config.lenPoll : Byte := 0x04

/-- R8: the parameters the source leaves open, which the model takes as an argument: every state carries them, no step
writes them, and a statement about every state holds for every value of them. -/
structure Config where
  /-- `TIME_W`: the width in bits of `now_ms` and `last_ms` (D2). -/
  timeW : Nat
  /-- `CNT_W`: the width in bits of each LinkCounter (D11). -/
  cntW : Nat
  /-- `PAYLOAD_INIT`: the payload buffer after reset (D9). -/
  payloadInit : Vector Byte Config.maxPayload
deriving DecidableEq, Repr

/-- R8: the defaults: 32, 32 and 29 bytes of 0x00. -/
def Config.standard : Config := { timeW := 32, cntW := 32, payloadInit := Vector.replicate Config.maxPayload 0x00 }

/-- R8: `TIME_W` "must be at least 2 so that `GAP_MS` is representable". -/
def Config.wf (c : Config) : Bool := 2 ≤ c.timeW

end Sys2Proof
end

