-- ==== Sys2Proof/Syntax.lean ====
section
/-! DEFINITION. The operations of the block, one constructor for each of the 24 rows of spec/opcode_table.json (R6, R96),
the FSM states that select among the byte-steps, and the calls a host can make. -/

namespace Sys2Proof

/-- R11: the six values of the FSM state register. -/
inductive FsmState where
  | idle
  | awaitLength
  | collectPayload
  | awaitChecksumLow
  | awaitChecksumHigh
  | respondPending
deriving DecidableEq, Repr

/-- The operations of the block. -/
inductive Instr where
  /-- `RXBYTE(b, now_ms)` (R60): one received byte and the time it is presented at. -/
  | rxbyte (b : Byte) (now : Nat)
  /-- `RX.GAP` (R61) with the timestamp update (R62): the first part of every RXBYTE. -/
  | rxGap (now : Nat)
  /-- `RX.IDLE(b)` (R63). -/
  | rxIdle (b : Byte)
  /-- `RX.LEN(b)` (R64). -/
  | rxLen (b : Byte)
  /-- `RX.DATA(b)` (R65). -/
  | rxData (b : Byte)
  /-- `RX.CKL(b)` (R66). -/
  | rxCkl (b : Byte)
  /-- `RX.CKH(b)` (R67). -/
  | rxCkh (b : Byte)
  /-- `DISPATCH` (R73): the classification of a frame whose checksum has matched. -/
  | dispatch
  /-- `CHANNELS` (R74): a frame with length byte `len` and command 0x40. -/
  | channels (len : Byte)
  /-- `POLL` (R75) with sub-command 0x80. -/
  | pollDiscover (addr : Nibble)
  /-- `POLL` (R75) with sub-command 0x90. -/
  | pollType (addr : Nibble)
  /-- `POLL` (R75) with sub-command 0xA0. -/
  | pollValue (addr : Nibble)
  /-- `POLL` (R75) with any other sub-command, given as its four high bits. -/
  | pollOther (sub : Nibble) (addr : Nibble)
  /-- `UNRECOGNISED` (R76): any other frame, by its length byte and command byte. -/
  | unrecognised (len : Byte) (cmd : Byte)
  /-- `EMIT` (R80). -/
  | emit
  /-- `REPLY.DISCOVER` (R82). -/
  | replyDiscover (addr : Nibble)
  /-- `REPLY.TYPE` (R83). -/
  | replyType (addr : Nibble)
  /-- `REPLY.VALUE` (R84). -/
  | replyValue (addr : Nibble)
  /-- `REPLY.CANCEL` (R85). -/
  | replyCancel
  /-- `ADD_SENSOR(t)` (R90). -/
  | addSensor (t : Byte)
  /-- `SET_MEAS(a, v)` (R91). -/
  | setMeas (a : Byte) (v : Word)
  /-- `READ_CHANNEL(i)` (R92). -/
  | readChannel (i : Nat)
  /-- `READ_COUNTERS` (R93). -/
  | readCounters
  /-- `RESET` (R120). -/
  | reset
deriving DecidableEq, Repr

/-- The host operations (the host-op rows of the table): the only moves the host has (R111). -/
inductive HostCall where
  /-- R90. -/
  | addSensor (t : Byte)
  /-- R91. -/
  | setMeas (a : Byte) (v : Word)
  /-- R92. -/
  | readChannel (i : Nat)
  /-- R93. -/
  | readCounters
  /-- R120. -/
  | reset
deriving DecidableEq, Repr

end Sys2Proof
end

