-- ==== Sys2Proof/WellFormed.lean ====
section
/-! DEFINITION. Which terms of Instr stand for an operation the spec describes: the length byte of a frame is one that
starts a frame (R46, R55), and the operands of a row are not those of an earlier row (R54, R96). -/

namespace Sys2Proof

/-- R46: `4 <= L <= 0x20`. -/
def lengthInRange (len : Byte) : Bool := Config.minLen ≤ len.toNat && len.toNat ≤ Config.maxLen

/-- The operands an operation may have, asked of the operation alone (the conditions that read the state are tested by
its meaning). -/
def Instr.wf : Instr → Bool
  | .channels len => lengthInRange len
  | .pollOther sub addr =>
    sub ++ (0 : Nibble) != Config.subDiscover && sub ++ (0 : Nibble) != Config.subType &&
      sub ++ (0 : Nibble) != Config.subValue && sub ++ addr != Config.cmdChannels
  | .unrecognised len cmd => lengthInRange len && cmd != Config.cmdChannels
  | .rxbyte _ _ | .rxGap _ | .rxIdle _ | .rxLen _ | .rxData _ | .rxCkl _ | .rxCkh _ => true
  | .dispatch | .pollDiscover _ | .pollType _ | .pollValue _ => true
  | .emit | .replyDiscover _ | .replyType _ | .replyValue _ | .replyCancel => true
  | .addSensor _ | .setMeas _ _ | .readChannel _ | .readCounters | .reset => true

/-- R54: the operations whose row reads the registry: a poll needs its address registered, and a length-4 frame is
UNRECOGNISED only where its address is not. -/
def Instr.wfFor (reg : Nibble → Bool) (i : Instr) : Bool :=
  i.wf && match i with
    | .pollDiscover a | .pollType a | .pollValue a | .pollOther _ a => reg a
    | .unrecognised len cmd => len != Config.lenPoll || !reg (cmd.extractLsb' 0 4)
    | _ => true

end Sys2Proof
end

