-- ==== Sys2Proof/Decode.lean ====
section
/-! DEFINITION. From bits to operations: the fields of a byte and a word (R9, R34, R48), the checksum (R70), the frame
format (R45 to R47, R57), the selectors of every format of the operation table (R96), and then the encoder. A frame is
decoded in layers, as the hardware meets it: `parseFrame` (length byte, checksum), then `decodeRx` (what the block makes of
a received header, R54) or `decodeTx` (what a transmitted header stands for, R51 to R53). -/

namespace Sys2Proof

/-! ### Fields and byte order -/

/-- R9: `lo8(w) = w[7:0]`. -/
def lo8 (w : Word) : Byte := w.extractLsb' 0 8

/-- R9: `hi8(w) = w[15:8]`. -/
def hi8 (w : Word) : Byte := w.extractLsb' 8 8

/-- R9, R34: `le16(lo, hi) = (hi << 8) | lo`, the low byte first on the wire. -/
def le16 (lo hi : Byte) : Word := (hi.setWidth 16 <<< 8) ||| lo.setWidth 16

/-- R96: the header word of a frame, `(length_byte << 8) | command_byte`. -/
def headerOf (len cmd : Byte) : Word := le16 cmd len

/-- R48: the address field of a command byte, `c & 0x0F`. -/
def addrOf (c : Byte) : Nibble := c.extractLsb' 0 4

/-- R48: the sub-command of a command byte, in place: `c & 0xF0`. -/
def subOf (c : Byte) : Byte := c &&& 0xF0

/-- R48: the four bits of the sub-command, `c[7:4]`. -/
def subNibble (c : Byte) : Nibble := c.extractLsb' 4 4

/-- R48: the sub-command in place, from its four bits. -/
def subInPlace (sub : Nibble) : Byte := sub.setWidth 8 <<< 4

/-- R50 to R53: a command byte from a sub-command in place and an address, `sub + addr`. -/
def cmdByte (sub : Byte) (addr : Nibble) : Byte := sub + addr.setWidth 8

/-! ### The checksum -/

/-- R70: the sum of a byte sequence, each byte an unsigned 8-bit number, modulo 2^16. -/
def sum16 : List Byte → Word
  | [] => 0
  | b :: bs => b.setWidth 16 + sum16 bs

/-- R70: `ck(B) = (0xFFFF - (b0 + ... + b(k-1))) mod 2^16`. Not a CRC (R2, C1). -/
def checksum (bs : List Byte) : Word := Config.ckSeed - sum16 bs

/-- R34(d), R47, R86: a body followed by its checksum, low byte then high byte. -/
def withChecksum (body : List Byte) : List Byte := body ++ [lo8 (checksum body), hi8 (checksum body)]

/-- R59: the pseudo-form `FRAME(p0 ... p(n-1))`. -/
def frame (payload : List Byte) : List Byte :=
  withChecksum (BitVec.ofNat 8 (payload.length + Config.overhead) :: payload)

/-! ### The selectors of the table's formats -/

/-- The `rx-frame` rows (R54, tests in the order of R73): the operation a validated received frame with header `hdr`
stands for. `reg a` says whether address `a` is registered, the one condition no bit pattern can express. -/
def decodeRx (reg : Nibble → Bool) (hdr : Word) : Instr :=
  let len := hi8 hdr
  let c := lo8 hdr
  if c = Config.cmdChannels then .channels len
  else if reg (addrOf c) && len == Config.lenPoll then
    if subOf c = Config.subDiscover then .pollDiscover (addrOf c)
    else if subOf c = Config.subType then .pollType (addrOf c)
    else if subOf c = Config.subValue then .pollValue (addrOf c)
    else .pollOther (subNibble c) (addrOf c)
  else .unrecognised len c

/-- The `tx-frame` rows (R51 to R53): the reply a transmitted frame with header `hdr` is. -/
def decodeTx (hdr : Word) : Option Instr :=
  let len := hi8 hdr
  let c := lo8 hdr
  if len = Config.lenDiscoverReply && subOf c = Config.subDiscover then some (.replyDiscover (addrOf c))
  else if len = Config.lenTypeReply && subOf c = Config.subType then some (.replyType (addrOf c))
  else if len = Config.lenValueReply && subOf c = Config.subValue then some (.replyValue (addrOf c))
  else none

/-- The `byte-step` rows: no bit of the byte selects among them, the FSM state after the gap rule does (R60, R96). No
byte is taken in `RespondPending` (R68). -/
def decodeByteStep (st : FsmState) (b : Byte) : Option Instr :=
  match st with
  | .idle => some (.rxIdle b)
  | .awaitLength => some (.rxLen b)
  | .collectPayload => some (.rxData b)
  | .awaitChecksumLow => some (.rxCkl b)
  | .awaitChecksumHigh => some (.rxCkh b)
  | .respondPending => none

/-- R81: the outcome of EMIT by `pend_sub`; the address plays no part in the choice. -/
def decodeEmit (pendSub : Byte) (pendAddr : Nibble) : Instr :=
  if pendSub = Config.subDiscover then .replyDiscover pendAddr
  else if pendSub = Config.subType then .replyType pendAddr
  else if pendSub = Config.subValue then .replyValue pendAddr
  else .replyCancel

/-- The `host-op` rows: selected by name (R96). -/
def HostCall.instr : HostCall → Instr
  | .addSensor t => .addSensor t
  | .setMeas a v => .setMeas a v
  | .readChannel i => .readChannel i
  | .readCounters => .readCounters
  | .reset => .reset

/-! ### The table's own bit patterns -/

/-- One `rx-frame` row of spec/opcode_table.json: its pattern, and whether its condition needs a registered address. -/
structure RxRow where
  mnemonic : String
  mask : Word
  pattern : Word
  needsAddress : Bool
deriving DecidableEq, Repr

/-- The `rx-frame` rows of spec/opcode_table.json in `decode_order`, but for DISPATCH, which is the walk itself. -/
def rxRows : List RxRow :=
  [⟨"CHANNELS", 0x00FF, headerOf 0x00 Config.cmdChannels, false⟩,
   ⟨"POLL.DISCOVER", 0xFFF0, headerOf Config.lenPoll Config.subDiscover, true⟩,
   ⟨"POLL.TYPE", 0xFFF0, headerOf Config.lenPoll Config.subType, true⟩,
   ⟨"POLL.VALUE", 0xFFF0, headerOf Config.lenPoll Config.subValue, true⟩,
   ⟨"POLL.OTHER", 0xFF00, headerOf Config.lenPoll 0x00, true⟩,
   ⟨"UNRECOGNISED", 0x0000, 0x0000, false⟩]

/-- R96: a row applies when `(hdr & mask) == match` and its condition holds. -/
def RxRow.applies (reg : Nibble → Bool) (hdr : Word) (r : RxRow) : Bool :=
  hdr &&& r.mask == r.pattern && (!r.needsAddress || reg (addrOf (lo8 hdr)))

/-- R96: walk the rows in `decode_order`; the first that applies wins. -/
def walkRxRows (reg : Nibble → Bool) (hdr : Word) : Option String :=
  (rxRows.find? (RxRow.applies reg hdr)).map RxRow.mnemonic

/-! ### Whole frames -/

/-- Why a byte string is no frame. -/
inductive DecodeError where
  /-- No byte at all. -/
  | empty
  /-- R55: an illegal length byte starts no frame. -/
  | badLength (len : Byte)
  /-- Fewer bytes than the length byte says (R45). -/
  | truncated
  /-- R67: the checksum bytes do not match. -/
  | badChecksum
  /-- A well-formed frame that is no reply of R51 to R53 (`decodeTxFrame` only). -/
  | notAReply
deriving DecidableEq, Repr

/-- R46: a length byte `L` is valid iff `OVERHEAD < L <= MAX_LEN`. -/
def validLength (len : Byte) : Bool := Config.overhead < len.toNat && len.toNat ≤ Config.maxLen

/-- The parts of a frame at the head of a byte string, and what follows it. -/
structure Parsed where
  /-- R96: the header word. -/
  hdr : Word
  /-- R45: the bytes after the command (absent when L is 4). -/
  data : List Byte
  /-- The bytes after the frame. -/
  rest : List Byte
deriving DecidableEq, Repr

/-- R45 to R47, R57: the frame at the head of `bs`. Its length comes from the first byte alone; the checksum is that of the
length byte and the payload. -/
def parseFrame (bs : List Byte) : Except DecodeError Parsed :=
  match bs with
  | [] => .error .empty
  | len :: tail =>
    if validLength len then
      match tail.take (len.toNat - Config.overhead), tail.drop (len.toNat - Config.overhead) with
      | cmd :: data, lo :: hi :: rest =>
        if le16 lo hi = checksum (len :: cmd :: data) then .ok ⟨headerOf len cmd, data, rest⟩ else .error .badChecksum
      | _, _ => .error .truncated
    else .error (.badLength len)

/-- A received frame: the operation it stands for, its data bytes and what follows it. -/
def decodeRxFrame (reg : Nibble → Bool) (bs : List Byte) : Except DecodeError (Instr × List Byte × List Byte) :=
  match parseFrame bs with
  | .ok p => .ok (decodeRx reg p.hdr, p.data, p.rest)
  | .error e => .error e

/-- A transmitted frame, read as the poller would: the reply it is, its data bytes and what follows it. -/
def decodeTxFrame (bs : List Byte) : Except DecodeError (Instr × List Byte × List Byte) :=
  match parseFrame bs with
  | .ok p =>
    match decodeTx p.hdr with
    | some i => .ok (i, p.data, p.rest)
    | none => .error .notAReply
  | .error e => .error e

/-! ### The words of spec/opcode_table.json -/

/-- Asked of bits alone, every address counts as registered (entry 16). -/
def anyAddress : Nibble → Bool := fun _ => true

/-- The header bits of a table row: the received frame they stand for; where that is only UNRECOGNISED (the row of mask 0,
which every header meets), the transmitted frame they stand for, if any (entry 16). -/
def decodeHeaderBits (hdr : Word) : Instr :=
  match decodeRx anyAddress hdr with
  | .unrecognised len c => (decodeTx hdr).getD (.unrecognised len c)
  | i => i

end Sys2Proof

/-- The instruction the decoder reads from the bits of a row of spec/opcode_table.json (R96). 16 bits are the header word of a
frame, its high byte the first on the wire. 8 bits are one received byte, of which no bit selects (mask 0x00): RXBYTE of
it, its time, which has no bits, at 0. No other width occurs on the wire (entry 16). -/
def Sys2Proof.decodeTableWord (nbits w : Nat) : Option Sys2Proof.Instr :=
  if nbits = 16 then some (Sys2Proof.decodeHeaderBits (BitVec.ofNat 16 w))
  else if nbits = 8 then some (.rxbyte (BitVec.ofNat 8 w) 0)
  else none

namespace Sys2Proof

/-! ### The encoder -/

/-- Which way a frame travels: the same bits are a poll on the way in and a Discover reply on the way out (R51). -/
inductive Direction where
  | rx
  | tx
deriving DecidableEq, Repr

/-- R49 to R53, R96: the header word of an operation that is a frame, and the way the frame travels. The byte-steps, DISPATCH,
EMIT, REPLY.CANCEL (it transmits nothing) and the host operations "have no encoding on any wire" (R96). -/
def encodeHeader (i : Instr) : Option (Direction × Word) :=
  match i with
  | .channels len => some (.rx, headerOf len Config.cmdChannels)
  | .pollDiscover a => some (.rx, headerOf Config.lenPoll (cmdByte Config.subDiscover a))
  | .pollType a => some (.rx, headerOf Config.lenPoll (cmdByte Config.subType a))
  | .pollValue a => some (.rx, headerOf Config.lenPoll (cmdByte Config.subValue a))
  | .pollOther sub a => some (.rx, headerOf Config.lenPoll (cmdByte (subInPlace sub) a))
  | .unrecognised len c => some (.rx, headerOf len c)
  | .replyDiscover a => some (.tx, headerOf Config.lenDiscoverReply (cmdByte Config.subDiscover a))
  | .replyType a => some (.tx, headerOf Config.lenTypeReply (cmdByte Config.subType a))
  | .replyValue a => some (.tx, headerOf Config.lenValueReply (cmdByte Config.subValue a))
  | .rxbyte _ _ | .rxGap _ | .rxIdle _ | .rxLen _ | .rxData _ | .rxCkl _ | .rxCkh _ => none
  | .dispatch | .emit | .replyCancel => none
  | .addSensor _ | .setMeas _ _ | .readChannel _ | .readCounters | .reset => none

/-- R45: the wire bytes of an operation that is a frame, with `data` as the bytes after its command. -/
def encode (i : Instr) (data : List Byte) : Option (List Byte) :=
  (encodeHeader i).map fun dh => withChecksum (hi8 dh.2 :: lo8 dh.2 :: data)

end Sys2Proof
end

