-- ==== Sys2Proof/Machine/State.lean ====
section
/-! DEFINITION. The state of the block as plain data: the registers of R11 to R26 (R10: these and nothing else), then the
ghost histories R27 allows a model to keep, then the inputs and parameters a run is given. -/

namespace Sys2Proof.Machine

/-- R94: the events of a step. -/
inductive Event where
  /-- Emitted by the RXBYTE step that completes a channel frame. -/
  | channelsUpdated
  /-- Emitted by an EMIT step that transmits: the whole reply, checksum included. -/
  | replyReady (bytes : List Byte)
deriving DecidableEq, Repr

/-- R100: the names of the five errors. Labels only: no operation reads one (D18, entry 12). -/
inductive ErrorName where
  | framingError
  | checksumMismatch
  | unknownCommand
  | addressOutOfRange
  | registryFull
deriving DecidableEq, Repr

/-- R27(c): a value returned by a host operation. -/
inductive HostResult where
  /-- ADD_SENSOR (R90). -/
  | address (a : Nibble)
  /-- READ_CHANNEL (R92). -/
  | channel (w : Word)
  /-- READ_COUNTERS (R93): channel frames, polls, replies. -/
  | counters (channel poll reply : Nat)
deriving DecidableEq, Repr

/-- R30: one element of the receive stream: a byte and the `now_ms` it is presented with. -/
structure RxByte where
  byte : Byte
  nowMs : Nat
deriving DecidableEq, Repr

/-- R39, R95: who moves next. The model's own: the order of the agents is free, and the state holds it (entry 1). -/
inductive Turn where
  /-- One invocation of the block by its driver (R95). -/
  | driver
  /-- One host operation. -/
  | host (call : HostCall)
deriving DecidableEq, Repr

/-- The state of the machine. -/
structure State where
  /-- R11: the FSM state. -/
  state : FsmState
  /-- R12: the payload byte count of the frame being received. -/
  frameLen : BitVec 5
  /-- R13: how many payload bytes are stored, and where the next one goes. -/
  payloadIdx : BitVec 5
  /-- R14: the payload buffer; never cleared between frames. -/
  payload : Vector Byte Config.maxPayload
  /-- R15: the running checksum. -/
  cksumRun : Word
  /-- R16: the low checksum byte received. -/
  cksumLo : Byte
  /-- R17: `last_ms`, below `2 ^ cfg.timeW`. -/
  lastMs : Nat
  /-- R18: the address of the pending response, 0 for none. -/
  pendAddr : Nibble
  /-- R19: the sub-command of the pending response, in place. -/
  pendSub : Byte
  /-- R20: the Channel Store. -/
  ch : Vector Word Config.nChannels
  /-- R21: how many sensors are registered. -/
  sensorCount : Nibble
  /-- R22: the sensor types; the entry of address `a` is element `a - 1`. -/
  sensorType : Vector Byte Config.maxSensors
  /-- R23: the measurements; the entry of address `a` is element `a - 1`. -/
  sensorValue : Vector Word Config.maxSensors
  /-- R24: channel frames received, below `2 ^ cfg.cntW`. -/
  cntChannel : Nat
  /-- R25: polls received, below `2 ^ cfg.cntW`. -/
  cntPoll : Nat
  /-- R26: replies sent, below `2 ^ cfg.cntW`. -/
  cntReply : Nat
  /-- R27(a): ghost: every byte transmitted, in order. -/
  tx : List Byte
  /-- R27(b): ghost: every event emitted, in order. -/
  events : List Event
  /-- R27(c): ghost: every value returned to the host, in order. -/
  results : List HostResult
  /-- R100: ghost: the name of every error raised, in order. -/
  errors : List ErrorName
  /-- R30: input: the bytes waiting in the Link Driver, oldest first. -/
  rx : List RxByte
  /-- Input: the moves still to be made, in order (entry 1). -/
  turns : List Turn
  /-- R8: the parameters of this block; no step writes them (entry 4). -/
  cfg : Config
deriving DecidableEq, Repr

/-- Why the machine stops. -/
inductive Fault where
  /-- S6: RXBYTE offered while a response is pending: the byte is stuck until EMIT has run (R68). Raised by RXBYTE asked for
  by name there; a driver invocation never asks for it (R95). Safe (entry 7). -/
  | stuckWhilePending
  /-- RX.DATA with a payload index of 29 or more: the buffer has no such element (R14). No reachable state raises it
  (R31). Safe (entry 10). -/
  | payloadIndexOutOfRange
  /-- A read or write of a registry entry 0 or 11 to 15: there is none (R21, R33). No reachable state raises it.
  Safe (entry 11). -/
  | noSuchSensorEntry
deriving DecidableEq, Repr

/-- Why the model gives a term no meaning. -/
inductive Refusal where
  /-- An instruction with no meaning yet. No arm of exec raises it. Safe. -/
  | notModelled (mnemonic : String)
  /-- A part of a step asked for by name where its rule says it does not apply (the "Applies when" of R61 to R67, R73 to
  R76, R82 to R85): the spec describes no such step. Safe (entry 8). -/
  | notApplicable
  /-- S7: EMIT with nothing pending: no such step exists (R80). Safe (entry 9). -/
  | nothingPending
deriving DecidableEq, Repr

/-- The outcome of an operation. -/
abbrev Result := Host.Outcome State Fault Refusal

/-- R29, R120: the state of a block with parameters `c` after RESET, with empty histories and no input placed. -/
def State.powerOn (c : Config) : State where
  state := .idle
  frameLen := 0
  payloadIdx := 0
  payload := c.payloadInit
  cksumRun := 0
  cksumLo := 0
  lastMs := 0
  pendAddr := 0
  pendSub := 0
  ch := Vector.replicate Config.nChannels 0
  sensorCount := 0
  sensorType := Vector.replicate Config.maxSensors 0
  sensorValue := Vector.replicate Config.maxSensors 0
  cntChannel := 0
  cntPoll := 0
  cntReply := 0
  tx := []
  events := []
  results := []
  errors := []
  rx := []
  turns := []
  cfg := c

/-- R29: the state after RESET, with the default parameters of R8. -/
def State.reset : State := State.powerOn Config.standard

end Sys2Proof.Machine
end

