-- ==== Sys2Proof/Machine/Operands.lean ====
section
/-! DEFINITION. How operations reach what they read: the elements of the arrays (R30 to R33), the header of the frame being
received (R96), the channel words of the buffer (R34, R49, R74). -/

namespace Sys2Proof.Machine

/-- R11, D7: the numbers the spec assigns to the six states, in a 3-bit register; 6 and 7 are never held. No operation
reads them (entry 30). -/
def fsmCode : FsmState → BitVec 3
  | .idle => 0
  | .awaitLength => 1
  | .collectPayload => 2
  | .awaitChecksumLow => 3
  | .awaitChecksumHigh => 4
  | .respondPending => 5

/-- The command byte of the frame in the buffer, `payload[0]` (R14). -/
def State.command (s : State) : Byte := s.payload[0]

/-- The length byte of the frame being received: `frame_len + 3` (R12, R46). -/
def State.lengthByte (s : State) : Byte := s.frameLen.setWidth 8 + BitVec.ofNat 8 Config.overhead

/-- R96: the header word of the frame being received. -/
def State.header (s : State) : Word := headerOf s.lengthByte s.command

/-- R79: an address is valid (registered, R33) iff `1 <= a <= sensor_count`. -/
def State.registered (s : State) (a : Nibble) : Bool := 1 ≤ a.toNat && a.toNat ≤ s.sensorCount.toNat

/-- R33: the place of the entry of a 1-based address; 0 and numbers above 10 have none. -/
def sensorSlot (a : Nat) : Option (Fin Config.maxSensors) :=
  if h : 1 ≤ a ∧ a ≤ Config.maxSensors then some ⟨a - 1, by omega⟩ else none

/-- R31: the two bytes of every channel word lie inside the buffer. -/
theorem channelBytes_inside (i : Fin Config.nChannels) : 2 + 2 * i.val < Config.maxPayload := by
  have h := i.isLt
  simp only [Config.nChannels, Config.maxPayload] at *
  omega

theorem channelLow_inside (i : Fin Config.nChannels) : 1 + 2 * i.val < Config.maxPayload := by
  have h := channelBytes_inside i
  omega

/-- R34(b), R49: channel word `i` is `payload[1 + 2i]` (low byte) and `payload[2 + 2i]` (high byte). -/
def channelWord (p : Vector Byte Config.maxPayload) (i : Fin Config.nChannels) : Word :=
  le16 (p[1 + 2 * i.val]'(channelLow_inside i)) (p[2 + 2 * i.val]'(channelBytes_inside i))

/-- R74: the 14 channel words of the buffer, whatever the length of the frame (R77). -/
def channelWords (p : Vector Byte Config.maxPayload) : Vector Word Config.nChannels :=
  Vector.ofFn (channelWord p)

/-- R92: `ch[i]`, and 0x0000 for an index of 14 or more (D16). -/
def State.channelAt (s : State) (i : Nat) : Word := if h : i < Config.nChannels then s.ch[i] else 0

end Sys2Proof.Machine
end

