-- ==== Sys2Proof/Machine/Flags.lean ====
section
/-! DEFINITION. The conditions the block tests. It keeps no flag (R28): each condition is computed in the step that needs
it and leaves no bit behind. -/

namespace Sys2Proof.Machine

/-- R61: `(now_ms - last_ms) mod 2^TIME_W`. -/
def elapsed (c : Config) (now last : Nat) : Nat := (((now : Int) - (last : Int)) % ((2 ^ c.timeW : Nat) : Int)).toNat

/-- R61: the gap rule's test, `elapsed >= GAP_MS`. -/
def State.gapBefore (s : State) (now : Nat) : Bool := Config.gapMs ≤ elapsed s.cfg now s.lastMs

/-- R67, R72: the received checksum `(b << 8) | cksum_lo` equals the running one; all 16 bits are compared. -/
def State.checksumMatches (s : State) (b : Byte) : Bool := le16 s.cksumLo b == s.cksumRun

/-- R73, R74: exactly the channel command; no condition on the length (R77). -/
def State.isChannelFrame (s : State) : Bool := s.command == Config.cmdChannels

/-- R78: the length guard of the poll test, "payload length is exactly 1 (i.e., wire length is exactly 4)": the named
guard that rejects the block's own echoed replies. -/
def State.pollLength (s : State) : Bool := s.frameLen == 1

/-- R75: a sensor poll: not the channel command, a registered address in the low nibble, and the length guard. -/
def State.isSensorPoll (s : State) : Bool := !s.isChannelFrame && s.registered (addrOf s.command) && s.pollLength

end Sys2Proof.Machine
end

