-- ==== Sys2Proof/Machine/Ops.lean ====
section
/-! DEFINITION. The named updates the operations are made of: the gap rule, the error entry (R109: the ONE thing every
error of the receiver does), the poll, the transmission of a reply, the registry writes, RESET, and what a driver invocation
or a host call asks for (R95). -/

namespace Sys2Proof.Machine

/-- R24 to R26: a counter increment, modulo `2^CNT_W`. -/
def bump (c : Config) (n : Nat) : Nat := (n + 1) % 2 ^ c.cntW

/-- R100: label the outcome of a step with the name of the error it raised. Ghost only (entry 12). -/
def State.label (s : State) (e : ErrorName) : State := { s with errors := s.errors ++ [e] }

/-- R109: taking an error in the receiver: `state <- Idle`, performed in the step that detects it. Nothing is saved: there
is no saved state, no vector, no handler and no mode (R100, R109). -/
def State.raiseToIdle (s : State) (e : ErrorName) : State := { s.label e with state := .idle }

/-- R61, R62, R110: the gap rule, which is also the only return from an error, and the timestamp update. -/
def State.applyGap (s : State) (now : Nat) : State :=
  { s with state := if s.gapBefore now then .awaitLength else s.state, lastMs := now % 2 ^ s.cfg.timeW }

/-- R75: the sensor poll. -/
def State.poll (s : State) (a : Nibble) (sub : Byte) : State :=
  { s with pendAddr := a, pendSub := sub, cntPoll := bump s.cfg s.cntPoll, state := .respondPending }

/-- R74: the channel frame. -/
def State.takeChannels (s : State) : State :=
  { s with ch := channelWords s.payload, cntChannel := bump s.cfg s.cntChannel, state := .idle,
           events := s.events ++ [.channelsUpdated] }

/-- R87: after emission or cancellation the pending registers are cleared (D13) and the machine returns to Idle. -/
def State.finishResponse (s : State) : State := { s with pendAddr := 0, pendSub := 0, state := .idle }

/-- R80, R86: transmit a reply body with its checksum, count it and report it, then R87. -/
def State.sendReply (s : State) (body : List Byte) : State :=
  State.finishResponse
    { s with tx := s.tx ++ withChecksum body, cntReply := bump s.cfg s.cntReply,
             events := s.events ++ [.replyReady (withChecksum body)] }

/-- R27(c): return a value to the host. -/
def State.answer (s : State) (r : HostResult) : State := { s with results := s.results ++ [r] }

/-- R120: RESET: every register to its reset value and every ghost history empty (entry 13); the waiting input and the
parameters are not registers of the block and stay. -/
def State.resetBlock (s : State) : State := { State.powerOn s.cfg with rx := s.rx, turns := s.turns }

/-- What the move at the head of `turns` asks for (none where it asks for nothing), and the state with that input consumed.
R95: one driver invocation is one EMIT when a response is pending, else one RXBYTE when a byte waits, else nothing; a byte
that waits while a response is pending stays (R68). With no move left the block is quiescent (R115, R123). -/
def fetch (s : State) : Option Instr × State :=
  match s.turns with
  | [] => (none, s)
  | .host c :: ts => (some c.instr, { s with turns := ts })
  | .driver :: ts =>
    if s.state = .respondPending then (some .emit, { s with turns := ts })
    else match s.rx with
      | [] => (none, { s with turns := ts })
      | r :: rs => (some (.rxbyte r.byte r.nowMs), { s with turns := ts, rx := rs })

/-- The state in which the very next step completes the received frame with header `hdr` and data bytes of 0x00: the buffer
holds its command, the checksum registers agree, one driver invocation is due and its last checksum byte waits, presented
without a gap. A poll's address counts as registered if the registry can hold it (entry 17). -/
def State.placeReceived (s : State) (hdr : Word) : State :=
  let len := hi8 hdr
  let c := lo8 hdr
  let ck := checksum [len, c]
  let n := BitVec.ofNat 5 (len.toNat - Config.overhead)
  { s with
    state := .awaitChecksumHigh
    frameLen := n
    payloadIdx := n
    payload := (Vector.replicate Config.maxPayload 0).set 0 c
    cksumRun := ck
    cksumLo := lo8 ck
    sensorCount :=
      if len = Config.lenPoll && s.sensorCount.toNat < (addrOf c).toNat && (addrOf c).toNat ≤ Config.maxSensors then addrOf c
      else s.sensorCount
    rx := ⟨hi8 ck, s.lastMs⟩ :: s.rx
    turns := .driver :: s.turns }

/-- The state in which the very next step is the EMIT that transmits the reply with sub-command `sub` for `a` (entry 17). -/
def State.placePending (s : State) (sub : Byte) (a : Nibble) : State :=
  { s with
    state := .respondPending
    pendAddr := a
    pendSub := sub
    sensorCount :=
      if s.sensorCount.toNat < a.toNat && a.toNat ≤ Config.maxSensors then a else s.sensorCount
    turns := .driver :: s.turns }

/-- The state in which the very next step is the RXBYTE of this byte and time: it waits first, one driver invocation is due,
and no response is pending (entry 17). -/
def State.placeByte (s : State) (b : Byte) (now : Nat) : State :=
  { s with
    state := if s.state = .respondPending then .idle else s.state
    rx := ⟨b, now⟩ :: s.rx
    turns := .driver :: s.turns }

/-- Place the operation that the bits of a table row stand for so that the next step runs it; bits that stand for none place
nothing. -/
def State.placeWord (s : State) (nbits w : Nat) : State :=
  match decodeTableWord nbits w with
  | some (.rxbyte b now) => s.placeByte b now
  | some (.replyDiscover a) => s.placePending Config.subDiscover a
  | some (.replyType a) => s.placePending Config.subType a
  | some (.replyValue a) => s.placePending Config.subValue a
  | some _ => s.placeReceived (BitVec.ofNat 16 w)
  | none => s

end Sys2Proof.Machine
end

