-- ==== Sys2Proof/Machine/HostOps.lean ====
section
/-! DEFINITION. The host operations (43_host_operations.md, R120), each enabled in every FSM state. -/

namespace Sys2Proof.Machine

/-- R90: append (the new entry, of address `sensor_count + 1`, is element `sensor_count`), or, when the registry is full,
write nothing and return 10 (R105). It does not write the measurement (D15). -/
def execAddSensor (t : Byte) (s : State) : Result :=
  if h : s.sensorCount.toNat < Config.maxSensors then
    .next (State.answer
      { s with sensorType := s.sensorType.set s.sensorCount.toNat t h, sensorCount := s.sensorCount + 1 }
      (.address (s.sensorCount + 1)))
  else .next ((s.label .registryFull).answer (.address (BitVec.ofNat 4 Config.maxSensors)))

/-- R91: one word written at a registered address; a no-op at any other, 0 included (D14). -/
def execSetMeas (a : Byte) (v : Word) (s : State) : Result :=
  if 1 ≤ a.toNat ∧ a.toNat ≤ s.sensorCount.toNat then
    match sensorSlot a.toNat with
    | some k => .next { s with sensorValue := s.sensorValue.set k v }
    | none => .fault .noSuchSensorEntry
  else .next (s.label .addressOutOfRange)

/-- R92: a read without side effect; 0x0000 for an index of 14 or more (D16). -/
def execReadChannel (i : Nat) (s : State) : Result := .next (s.answer (.channel (s.channelAt i)))

/-- R93: a read without side effect. -/
def execReadCounters (s : State) : Result := .next (s.answer (.counters s.cntChannel s.cntPoll s.cntReply))

/-- R120. -/
def execReset (s : State) : Result := .next s.resetBlock

end Sys2Proof.Machine
end

