-- ==== Sys2Proof/Machine/FrameCommands.lean ====
section
/-! DEFINITION. The frame commands (41_frame_commands.md): what a validated frame does. Each applies only where the receiver
stands at the end of such a frame (entry 8); DISPATCH (R73) selects among them. -/

namespace Sys2Proof.Machine

/-- The receiver is at its last byte, and the frame it holds has this length byte and this command byte. -/
def State.atFrame (s : State) (len cmd : Byte) : Bool :=
  s.state == .awaitChecksumHigh && s.lengthByte == len && s.command == cmd

/-- R75, shared by the four poll rows: enter RespondPending with the address and the sub-command of the frame. -/
def pollRow (sub : Byte) (a : Nibble) (s : State) : Result :=
  if s.atFrame Config.lenPoll (cmdByte sub a) && s.isSensorPoll then .next (s.poll a sub) else .refused .notApplicable

/-- R74 (and R77: a short frame decodes the buffer as it stands). -/
def execChannels (len : Byte) (s : State) : Result :=
  if s.atFrame len Config.cmdChannels then .next s.takeChannels else .refused .notApplicable

/-- R75 with sub-command 0x80. -/
def execPollDiscover (a : Nibble) (s : State) : Result := pollRow Config.subDiscover a s

/-- R75 with sub-command 0x90. -/
def execPollType (a : Nibble) (s : State) : Result := pollRow Config.subType a s

/-- R75 with sub-command 0xA0. -/
def execPollValue (a : Nibble) (s : State) : Result := pollRow Config.subValue a s

/-- R75 with any other sub-command: accepted here, cancelled by EMIT (R85). -/
def execPollOther (sub a : Nibble) (s : State) : Result :=
  if subInPlace sub = Config.subDiscover ∨ subInPlace sub = Config.subType ∨ subInPlace sub = Config.subValue then
    .refused .notApplicable
  else pollRow (subInPlace sub) a s

/-- R76: the name of an unrecognised frame: AddressOutOfRange for a length-4 frame whose address nibble is 0 or above
`sensor_count`, UnknownCommand otherwise (a label only, D18). -/
def State.unrecognisedName (s : State) : ErrorName :=
  if s.pollLength && !s.registered (addrOf s.command) then .addressOutOfRange else .unknownCommand

/-- R76: dropped; nothing but the state changes. -/
def execUnrecognised (len cmd : Byte) (s : State) : Result :=
  if s.atFrame len cmd && !s.isChannelFrame && !s.isSensorPoll then .next (s.raiseToIdle s.unrecognisedName)
  else .refused .notApplicable

/-- R73: the tests in their order, the first that holds decides. A poll goes to the row of its sub-command. -/
def execDispatch (s : State) : Result :=
  if s.state ≠ .awaitChecksumHigh then .refused .notApplicable
  else if s.isChannelFrame then execChannels s.lengthByte s
  else if s.isSensorPoll then
    if subOf s.command = Config.subDiscover then execPollDiscover (addrOf s.command) s
    else if subOf s.command = Config.subType then execPollType (addrOf s.command) s
    else if subOf s.command = Config.subValue then execPollValue (addrOf s.command) s
    else execPollOther (subNibble s.command) (addrOf s.command) s
  else execUnrecognised s.lengthByte s.command s

end Sys2Proof.Machine
end

