-- ==== Sys2Proof/Machine/Receiver.lean ====
section
/-! DEFINITION. The Frame Receiver (40_receiver_fsm.md): RXBYTE and its parts, one per FSM state. A part asked for by name
outside the state it applies in is refused (entry 8). -/

namespace Sys2Proof.Machine

/-- R61, R62: the gap rule and the timestamp. It "never applies in `RespondPending`". -/
def execRxGap (now : Nat) (s : State) : Result :=
  if s.state = .respondPending then .refused .notApplicable else .next (s.applyGap now)

/-- R63: the byte is dropped. -/
def execRxIdle (_b : Byte) (s : State) : Result :=
  if s.state = .idle then .next { s with state := .idle } else .refused .notApplicable

/-- R64: the length byte. The branch to AwaitChecksumLow is unreachable and kept as the source states it (C9); the payload
buffer is not cleared. -/
def execRxLen (b : Byte) (s : State) : Result :=
  if s.state = .awaitLength then
    if validLength b then
      .next { s with
        frameLen := BitVec.ofNat 5 (b.toNat - Config.overhead)
        cksumRun := Config.ckSeed - b.setWidth 16
        payloadIdx := 0
        state := if b.toNat - Config.overhead = 0 then .awaitChecksumLow else .collectPayload }
    else .next (s.raiseToIdle .framingError)
  else .refused .notApplicable

/-- R65: a payload byte. The buffer has MAX_PAYLOAD elements and no other (entry 10). -/
def execRxData (b : Byte) (s : State) : Result :=
  if s.state = .collectPayload then
    if h : s.payloadIdx.toNat < Config.maxPayload then
      .next { s with
        payload := s.payload.set s.payloadIdx.toNat b h
        cksumRun := s.cksumRun - b.setWidth 16
        payloadIdx := s.payloadIdx + 1
        state := if s.payloadIdx + 1 = s.frameLen then .awaitChecksumLow else .collectPayload }
    else .fault .payloadIndexOutOfRange
  else .refused .notApplicable

/-- R66: the low checksum byte; no comparison yet. -/
def execRxCkl (b : Byte) (s : State) : Result :=
  if s.state = .awaitChecksumLow then .next { s with cksumLo := b, state := .awaitChecksumHigh }
  else .refused .notApplicable

/-- R67: the high checksum byte and the verdict. -/
def execRxCkh (b : Byte) (s : State) : Result :=
  if s.state = .awaitChecksumHigh then
    if s.checksumMatches b then execDispatch s else .next (s.raiseToIdle .checksumMismatch)
  else .refused .notApplicable

/-- R60: the operation of the state that results from the gap rule. -/
def byteStep (b : Byte) (s : State) : Result :=
  match s.state with
  | .idle => execRxIdle b s
  | .awaitLength => execRxLen b s
  | .collectPayload => execRxData b s
  | .awaitChecksumLow => execRxCkl b s
  | .awaitChecksumHigh => execRxCkh b s
  | .respondPending => .fault .stuckWhilePending

/-- R60: RXBYTE: the gap rule, the timestamp, then the operation of the state. Not enabled while a response is pending
(R68; S6: stuck for that byte). -/
def execRxbyte (b : Byte) (now : Nat) (s : State) : Result :=
  if s.state = .respondPending then .fault .stuckWhilePending else byteStep b (s.applyGap now)

end Sys2Proof.Machine
end

