-- ==== Sys2Proof/Machine/Responder.lean ====
section
/-! DEFINITION. The Telemetry Responder (42_telemetry_responder.md): EMIT and its four outcomes. Each outcome is the whole
effect of its EMIT step, the return to Idle of R87 included (entry 15). -/

namespace Sys2Proof.Machine

/-- A response is pending with this sub-command and this address. -/
def State.pendingIs (s : State) (sub : Byte) (a : Nibble) : Bool :=
  s.state == .respondPending && s.pendSub == sub && s.pendAddr == a

/-- R51, R82: the body of a Discover reply. -/
def discoverBody (a : Nibble) : List Byte := [Config.lenDiscoverReply, cmdByte Config.subDiscover a]

/-- R52, R83: the body of a Type reply. -/
def typeBody (a : Nibble) (t : Byte) : List Byte :=
  [Config.lenTypeReply, cmdByte Config.subType a, t, Config.typeTrailer]

/-- R53, R84: the body of a Value reply, the measurement low byte first. -/
def valueBody (a : Nibble) (v : Word) : List Byte :=
  [Config.lenValueReply, cmdByte Config.subValue a, lo8 v, hi8 v]

/-- R82. It reads no registry entry. -/
def execReplyDiscover (a : Nibble) (s : State) : Result :=
  if s.pendingIs Config.subDiscover a then .next (s.sendReply (discoverBody a)) else .refused .notApplicable

/-- R83. -/
def execReplyType (a : Nibble) (s : State) : Result :=
  if s.pendingIs Config.subType a then
    match sensorSlot a.toNat with
    | some k => .next (s.sendReply (typeBody a s.sensorType[k]))
    | none => .fault .noSuchSensorEntry
  else .refused .notApplicable

/-- R84: the measurement is read once, in this step. -/
def execReplyValue (a : Nibble) (s : State) : Result :=
  if s.pendingIs Config.subValue a then
    match sensorSlot a.toNat with
    | some k => .next (s.sendReply (valueBody a s.sensorValue[k]))
    | none => .fault .noSuchSensorEntry
  else .refused .notApplicable

/-- R85: no byte, no count, no event; the error is UnknownCommand, detected late (R103). -/
def execReplyCancel (s : State) : Result :=
  if s.state = .respondPending ∧ s.pendSub ≠ Config.subDiscover ∧ s.pendSub ≠ Config.subType ∧ s.pendSub ≠ Config.subValue
  then .next (s.label .unknownCommand).finishResponse
  else .refused .notApplicable

/-- R80, R81: EMIT, by the pending sub-command alone. With nothing pending there is no such step (S7). -/
def execEmit (s : State) : Result :=
  if s.state ≠ .respondPending then .refused .nothingPending
  else if s.pendSub = Config.subDiscover then execReplyDiscover s.pendAddr s
  else if s.pendSub = Config.subType then execReplyType s.pendAddr s
  else if s.pendSub = Config.subValue then execReplyValue s.pendAddr s
  else execReplyCancel s

end Sys2Proof.Machine
end

