-- ==== Sys2Proof/Machine/Dispatch.lean ====
section
/-! DEFINITION. The meaning of every operation, one arm per row of spec/opcode_table.json. -/

namespace Sys2Proof.Machine

def exec (i : Instr) (s : State) : Host.Outcome State Fault Refusal :=
  match i with
  | .rxbyte b now => Sys2Proof.Machine.execRxbyte b now s
  | .rxGap now => Sys2Proof.Machine.execRxGap now s
  | .rxIdle b => Sys2Proof.Machine.execRxIdle b s
  | .rxLen b => Sys2Proof.Machine.execRxLen b s
  | .rxData b => Sys2Proof.Machine.execRxData b s
  | .rxCkl b => Sys2Proof.Machine.execRxCkl b s
  | .rxCkh b => Sys2Proof.Machine.execRxCkh b s
  | .dispatch => Sys2Proof.Machine.execDispatch s
  | .channels len => Sys2Proof.Machine.execChannels len s
  | .pollDiscover addr => Sys2Proof.Machine.execPollDiscover addr s
  | .pollType addr => Sys2Proof.Machine.execPollType addr s
  | .pollValue addr => Sys2Proof.Machine.execPollValue addr s
  | .pollOther sub addr => Sys2Proof.Machine.execPollOther sub addr s
  | .unrecognised len cmd => Sys2Proof.Machine.execUnrecognised len cmd s
  | .emit => Sys2Proof.Machine.execEmit s
  | .replyDiscover addr => Sys2Proof.Machine.execReplyDiscover addr s
  | .replyType addr => Sys2Proof.Machine.execReplyType addr s
  | .replyValue addr => Sys2Proof.Machine.execReplyValue addr s
  | .replyCancel => Sys2Proof.Machine.execReplyCancel s
  | .addSensor t => Sys2Proof.Machine.execAddSensor t s
  | .setMeas a v => Sys2Proof.Machine.execSetMeas a v s
  | .readChannel k => Sys2Proof.Machine.execReadChannel k s
  | .readCounters => Sys2Proof.Machine.execReadCounters s
  | .reset => Sys2Proof.Machine.execReset s

end Sys2Proof.Machine
end

