-- ==== Sys2Proof/Machine/Step.lean ====
section
/-! DEFINITION. One step of the machine (R9, R39): the next move asks for one operation, or for nothing. -/

namespace Sys2Proof.Machine

/-- One atomic step (R36): fetch the next move's operation and run it; where the move asks for nothing, nothing but the
consumed move changes. -/
def step (s : State) : Host.Outcome State Fault Refusal :=
  match fetch s with
  | (none, s') => .next s'
  | (some i, s') => exec i s'

/-- `s` with the operation of a table row placed so that the next step runs it (entry 17). -/
def State.withFetchWord (s : State) (nbits w : Nat) : State := s.placeWord nbits w

end Sys2Proof.Machine
end

