-- ==== Sys2Proof/Machine/Stream.lean ====
section
/-! DEFINITION. The spec's notation for what is fed to the block (R58, R59): the pseudo-forms as bytes, and a line of a
stream script as the inputs it places. -/

namespace Sys2Proof.Machine

/-- R59: `CHANNELS(w0, ..., w13)`. -/
def channelsForm (ws : Vector Word Config.nChannels) : List Byte :=
  frame (Config.cmdChannels :: ws.toList.flatMap fun w => [lo8 w, hi8 w])

/-- R59: `DISCOVER(a)`. -/
def discoverForm (a : Nibble) : List Byte := frame [cmdByte Config.subDiscover a]

/-- R59: `TYPEQ(a)`. -/
def typeqForm (a : Nibble) : List Byte := frame [cmdByte Config.subType a]

/-- R59: `VALUEQ(a)`. -/
def valueqForm (a : Nibble) : List Byte := frame [cmdByte Config.subValue a]

/-- R58: a line of a stream script. -/
inductive ScriptLine where
  /-- `@T+d: b0 b1 ...`: byte `k` is presented with `now_ms = T + k*d` (`@T:` is `d = 0`). -/
  | bytes (t d : Nat) (bs : List Byte)
  /-- `EMIT`: the driver's invocation, which is EMIT where a response is pending. -/
  | emit
  /-- A host operation. -/
  | call (c : HostCall)
deriving DecidableEq, Repr

/-- R58: the bytes of a line with their times: `t`, `t + d`, `t + 2d`, … -/
def timed (t d : Nat) : List Byte → List RxByte
  | [] => []
  | b :: bs => ⟨b, t⟩ :: timed (t + d) d bs

/-- Place the inputs of a line behind those already placed. -/
def ScriptLine.place (s : State) : ScriptLine → State
  | .bytes t d bs => { s with rx := s.rx ++ timed t d bs, turns := s.turns ++ bs.map fun _ => Turn.driver }
  | .emit => { s with turns := s.turns ++ [.driver] }
  | .call c => { s with turns := s.turns ++ [.host c] }

/-- R58: a script is executed top to bottom. -/
def placeScript (s : State) (lines : List ScriptLine) : State := lines.foldl ScriptLine.place s

end Sys2Proof.Machine
end

