-- ==== Sys2Proof/Safety.lean ====
section
/-! DEFINITION. The terms claims about runs use: what every reachable state satisfies (`State.Inv`), what a step may be said
to do, and what it is to receive a run of bytes. -/

namespace Sys2Proof.Machine

/-- A frame is in progress (R69: the three states between a length byte and the last checksum byte). -/
def State.inFrame (s : State) : Prop :=
  s.state = .collectPayload ∨ s.state = .awaitChecksumLow ∨ s.state = .awaitChecksumHigh

/-- The sum of a byte sequence, each byte a number from 0 to 255 (R70), with no reduction. -/
def byteSum (bs : List Byte) : Nat := (bs.map BitVec.toNat).sum

/-- The first `n` bytes of the payload buffer. -/
def State.payloadPrefix (s : State) (n : Nat) : List Byte := s.payload.toList.take n

/-- The bytes of the replies among a list of events, in order. -/
def replyBytes : List Event → List Byte
  | [] => []
  | .channelsUpdated :: es => replyBytes es
  | .replyReady bs :: es => bs ++ replyBytes es

/-- How many events report a channel frame. -/
def channelEvents (es : List Event) : Nat := es.countP fun e => e == .channelsUpdated

/-- How many events report a reply. -/
def replyEvents (es : List Event) : Nat := es.countP fun e => e != .channelsUpdated

/-- What holds of every reachable state. Statements about every state take it as a premise where they could fail only in
states that no run reaches. -/
structure State.Inv (s : State) : Prop where
  /-- R8: `TIME_W` is at least 2. -/
  params : s.cfg.wf = true
  /-- R17: `last_ms` fits its width. -/
  time : s.lastMs < 2 ^ s.cfg.timeW
  /-- R24: the counter fits its width, and counts the ChannelsUpdated events (R94). -/
  channelCount : s.cntChannel = channelEvents s.events % 2 ^ s.cfg.cntW
  /-- R25: the counter fits its width. -/
  pollCount : s.cntPoll < 2 ^ s.cfg.cntW
  /-- R26: the counter fits its width, and counts the ReplyReady events (R94). -/
  replyCount : s.cntReply = replyEvents s.events % 2 ^ s.cfg.cntW
  /-- R94: the bytes transmitted are those of the ReplyReady events, in order. -/
  transmitted : s.tx = replyBytes s.events
  /-- R69: AwaitLength is never a resting state. -/
  resting : s.state ≠ .awaitLength
  /-- R12: at most 29. -/
  lenMax : s.frameLen.toNat ≤ Config.maxPayload
  /-- R12: at least 1 while a frame is in progress. -/
  lenMin : s.inFrame → 1 ≤ s.frameLen.toNat
  /-- R13, R31: while payload is collected the next index is inside the frame. -/
  indexInside : s.state = .collectPayload → s.payloadIdx.toNat < s.frameLen.toNat
  /-- R65: at the checksum bytes the whole payload is stored. -/
  indexEnd : s.state = .awaitChecksumLow ∨ s.state = .awaitChecksumHigh → s.payloadIdx = s.frameLen
  /-- R15, R72: `checksum_running` is `0xFFFF - (length_byte + sum(payload so far))`, with no borrow (R71). -/
  runningSum : s.inFrame →
    s.cksumRun.toNat + (s.frameLen.toNat + Config.overhead + byteSum (s.payloadPrefix s.payloadIdx.toNat)) = Config.ckSeed.toNat
  /-- R18: a pending response has a registered address. -/
  pending : s.state = .respondPending → 1 ≤ s.pendAddr.toNat ∧ s.pendAddr.toNat ≤ s.sensorCount.toNat
  /-- R18, R19, D13: 0 means no response is pending. -/
  nonePending : s.state ≠ .respondPending → s.pendAddr = 0 ∧ s.pendSub = 0
  /-- R19: the low four bits of the sub-command are 0. -/
  subLow : addrOf s.pendSub = 0
  /-- R21: at most 10 sensors. -/
  capacity : s.sensorCount.toNat ≤ Config.maxSensors
  /-- R22, R23, D15: the entry of an unregistered address holds its reset value. -/
  unregistered : ∀ k : Fin Config.maxSensors, s.sensorCount.toNat ≤ k.val → s.sensorType[k] = 0 ∧ s.sensorValue[k] = 0

/-- The registers of the block (R10), as one value: what a claim compares when it says that ghosts and inputs do not
matter. -/
def State.registers (s : State) : State := { s with tx := [], events := [], results := [], errors := [], rx := [], turns := [] }

/-- The state is the same but for its ghost histories (R27, R100). -/
def State.sameButGhosts (s t : State) : Prop := s.registers = t.registers ∧ s.rx = t.rx ∧ s.turns = t.turns

/-- The byte `b` would be taken with a gap before it, `last` being the time of the byte before (R61). -/
def gapAt (c : Config) (now last : Nat) : Prop := Config.gapMs ≤ elapsed c now last

/-- R61, R62: no byte of the list has a gap before it, `last` being the time of the byte before the first. -/
def noGaps (c : Config) : Nat → List RxByte → Prop
  | _, [] => True
  | last, r :: rs => ¬ gapAt c r.nowMs last ∧ noGaps c (r.nowMs % 2 ^ c.timeW) rs

/-- R61: the first byte of the list has a gap before it and no other byte has. -/
def oneBurst (c : Config) (last : Nat) : List RxByte → Prop
  | [] => False
  | r :: rs => gapAt c r.nowMs last ∧ noGaps c (r.nowMs % 2 ^ c.timeW) rs

/-- R60, R61: the FSM state in which a byte presented at `now` is processed. -/
def State.processedIn (s : State) (now : Nat) : FsmState :=
  if Config.gapMs ≤ elapsed s.cfg now s.lastMs then .awaitLength else s.state

/-- R60, R67, R95: the step from `s` to `t` is a driver's invocation that takes the last byte of a frame, presented without a
gap, and its checksum matches: the only byte that completes a validated frame. -/
def State.validatesFrame (s t : State) : Prop :=
  s.state = .awaitChecksumHigh ∧ s.turns.head? = some .driver ∧
    ∃ r, s.rx = r :: t.rx ∧ ¬ gapAt s.cfg r.nowMs s.lastMs ∧ r.byte.toNat * 256 + s.cksumLo.toNat = s.cksumRun.toNat

/-- R43: the RXBYTE steps of a list of bytes, in order, with no other step between them. -/
def receive : List RxByte → State → Result
  | [], s => .next s
  | r :: rs, s =>
    match exec (.rxbyte r.byte r.nowMs) s with
    | .next t => receive rs t
    | o => o

/-- The time of the last byte of a list, as the block keeps it. -/
def lastTime (c : Config) (last : Nat) : List RxByte → Nat
  | [] => last
  | r :: rs => lastTime c (r.nowMs % 2 ^ c.timeW) rs

/-- R14: the buffer with the bytes of `bs` written over its first ones; the others keep what they held. -/
def overwrite (p : Vector Byte Config.maxPayload) (bs : List Byte) : Vector Byte Config.maxPayload :=
  Vector.ofFn fun k : Fin Config.maxPayload => if h : k.val < bs.length then bs[k.val] else p[k.val]

/-- The receiver at the last byte of a frame with this payload, as R64 to R66 leave it, `lo` being the low checksum byte
received and `last` the time kept. -/
def State.atLastByte (s : State) (payload : List Byte) (lo : Byte) (last : Nat) : State :=
  { s with
    state := .awaitChecksumHigh
    frameLen := BitVec.ofNat 5 payload.length
    payloadIdx := BitVec.ofNat 5 payload.length
    payload := overwrite s.payload payload
    cksumRun := checksum (BitVec.ofNat 8 (payload.length + Config.overhead) :: payload)
    cksumLo := lo
    lastMs := last }

end Sys2Proof.Machine
end

