-- ==== Sys2Proof/Certificates/Slice0/Obligations.lean ====
section
/-! DEFINITION. The statements for the provers. Numbers in them are the spec's own; where a statement rests on a decision of
spec/92_eei_decisions.md or on a choice of the model, its docstring names it. `{ t with f := s.f, … } = s` says that `t`
is `s` but for the fields listed: the frame of the operation. -/

open Sys2Proof Sys2Proof.Machine

/-! ### Reset and the step -/

/-- The table of R29. All of it but `state` and `sensor_count` is the spec's decision (D4, D9, D10, D11); the inputs, the
results and the error labels empty are the model's choice (entries 3 and 13). -/
def Obligations.ResetStateHoldsTheTable : Prop :=
  State.reset =
    { state := .idle, frameLen := 0, payloadIdx := 0, payload := Vector.replicate 29 0x00, cksumRun := 0x0000,
      cksumLo := 0x00, lastMs := 0, pendAddr := 0, pendSub := 0x00, ch := Vector.replicate 14 0x0000, sensorCount := 0,
      sensorType := Vector.replicate 10 0x00, sensorValue := Vector.replicate 10 0x0000, cntChannel := 0, cntPoll := 0,
      cntReply := 0, tx := [], events := [], results := [], errors := [], rx := [], turns := [],
      cfg := { timeW := 32, cntW := 32, payloadInit := Vector.replicate 29 0x00 } }

/-- RESET from every state (R120, decision D10): every register to its value, the histories empty; the waiting input, the
moves still to be made and the parameters stay (the model's choice, entry 13). -/
def Obligations.ResetSetsEveryRegister : Prop :=
  ∀ s : State, exec .reset s = .next
    { s with
      state := .idle, frameLen := 0, payloadIdx := 0, payload := s.cfg.payloadInit, cksumRun := 0x0000, cksumLo := 0x00,
      lastMs := 0, pendAddr := 0, pendSub := 0x00, ch := Vector.replicate 14 0x0000, sensorCount := 0,
      sensorType := Vector.replicate 10 0x00, sensorValue := Vector.replicate 10 0x0000, cntChannel := 0, cntPoll := 0,
      cntReply := 0, tx := [], events := [], results := [], errors := [] }

/-- One step runs the operation the next move asks for, the move consumed: EMIT where a response is pending, else RXBYTE of
the first waiting byte, else nothing, for a driver invocation (R95, D6); the host's operation for a host call; nothing where
no move is left (the model's choice, entry 14). -/
def Obligations.StepRunsTheNextMove : Prop :=
  ∀ s : State,
    (s.turns = [] → step s = .next s) ∧
    ∀ ts : List Turn,
      (∀ c : HostCall, s.turns = .host c :: ts → step s = exec c.instr { s with turns := ts }) ∧
      (s.turns = .driver :: ts →
        (s.state = .respondPending → step s = exec .emit { s with turns := ts }) ∧
        (s.state ≠ .respondPending → s.rx = [] → step s = .next { s with turns := ts }) ∧
        (∀ r rs, s.state ≠ .respondPending → s.rx = r :: rs →
          step s = exec (.rxbyte r.byte r.nowMs) { s with turns := ts, rx := rs }))

/-- Frames written out in the spec (S1, V42-1, V41-2, V42-2, V42-3 of 95_test_vectors.md) decode to what they stand for. -/
def Obligations.SpecFramesDecode : Prop :=
  decodeRxFrame anyAddress [0x04, 0x81, 0x7A, 0xFF] = .ok (.pollDiscover 1, [], []) ∧
  decodeRxFrame anyAddress [0x04, 0x9A, 0x61, 0xFF] = .ok (.pollType 10, [], []) ∧
  decodeRxFrame anyAddress [0x04, 0xA1, 0x5A, 0xFF] = .ok (.pollValue 1, [], []) ∧
  decodeRxFrame anyAddress [0x04, 0x41, 0xBA, 0xFF] = .ok (.pollOther 4 1, [], []) ∧
  decodeRxFrame anyAddress [0x04, 0x40, 0xBB, 0xFF] = .ok (.channels 4, [], []) ∧
  decodeRxFrame anyAddress [0x05, 0x81, 0x00, 0x79, 0xFF] = .ok (.unrecognised 5 0x81, [0x00], []) ∧
  decodeTxFrame [0x04, 0x8A, 0x71, 0xFF] = .ok (.replyDiscover 10, [], []) ∧
  decodeTxFrame [0x06, 0x92, 0x41, 0x02, 0x24, 0xFF] = .ok (.replyType 2, [0x41, 0x02], []) ∧
  decodeTxFrame [0x06, 0xA1, 0x34, 0x12, 0x12, 0xFF] = .ok (.replyValue 1, [0x34, 0x12], [])

/-! ### The byte-steps -/

/-- The gap rule and the timestamp (R61, R62) in terms of the true elapsed time `d`, whatever the clock has wrapped: a byte
that comes `d` ms after the previous one, `d` below 2^TIME_W, restarts the receiver exactly when `d` is at least 3 (modular
time is decision D2). -/
def Obligations.GapRuleRestartsAtThreeMilliseconds : Prop :=
  ∀ (s : State) (d : Nat), s.state ≠ .respondPending → s.lastMs < 2 ^ s.cfg.timeW → d < 2 ^ s.cfg.timeW →
    exec (.rxGap ((s.lastMs + d) % 2 ^ s.cfg.timeW)) s = .next
      { s with state := if 3 ≤ d then .awaitLength else s.state, lastMs := (s.lastMs + d) % 2 ^ s.cfg.timeW }

/-- RXBYTE is the gap rule followed by the one part that the resulting state selects (R60). -/
def Obligations.RxbyteRunsTheSelectedPart : Prop :=
  ∀ (s : State) (b : Byte) (now : Nat), s.state ≠ .respondPending →
    ∃ g i, exec (.rxGap now) s = .next g ∧ decodeByteStep g.state b = some i ∧ exec (.rxbyte b now) s = exec i g

/-- RXBYTE completes in every state but RespondPending, as long as a payload byte to be stored has a place in the buffer. It
always writes the timestamp and never rests in AwaitLength; what else may change is decided by the FSM state after the gap
rule: the length and the seed in AwaitLength, one payload byte, the index and the running checksum in CollectPayload, the low
checksum byte in AwaitChecksumLow, the channels, counters, pending registers and events in AwaitChecksumHigh. The registry,
the reply counter, what was transmitted and the inputs never change (R60, R62 with decision D3, R69, R31). -/
def Obligations.RxbyteCompletes : Prop :=
  ∀ (s : State) (b : Byte) (now : Nat), s.state ≠ .respondPending →
    (s.processedIn now = .collectPayload → s.payloadIdx.toNat < 29) →
    ∃ t, exec (.rxbyte b now) s = .next t ∧ t.lastMs = now % 2 ^ s.cfg.timeW ∧ t.state ≠ .awaitLength ∧
      (s.processedIn now ≠ .awaitLength → t.frameLen = s.frameLen) ∧
      (s.processedIn now ≠ .awaitLength → s.processedIn now ≠ .collectPayload →
        t.payloadIdx = s.payloadIdx ∧ t.cksumRun = s.cksumRun) ∧
      (s.processedIn now ≠ .collectPayload → t.payload = s.payload) ∧
      (∀ k : Fin 29, k.val ≠ s.payloadIdx.toNat → t.payload[k] = s.payload[k]) ∧
      (s.processedIn now ≠ .awaitChecksumLow → t.cksumLo = s.cksumLo) ∧
      (s.processedIn now ≠ .awaitChecksumHigh →
        t.ch = s.ch ∧ t.cntChannel = s.cntChannel ∧ t.cntPoll = s.cntPoll ∧ t.pendAddr = s.pendAddr ∧
          t.pendSub = s.pendSub ∧ t.events = s.events) ∧
      (s.processedIn now ≠ .awaitLength → s.processedIn now ≠ .awaitChecksumHigh → t.errors = s.errors) ∧
      { t with state := s.state, frameLen := s.frameLen, payloadIdx := s.payloadIdx, payload := s.payload,
               cksumRun := s.cksumRun, cksumLo := s.cksumLo, lastMs := s.lastMs, pendAddr := s.pendAddr,
               pendSub := s.pendSub, ch := s.ch, cntChannel := s.cntChannel, cntPoll := s.cntPoll, events := s.events,
               errors := s.errors } = s

/-- R63 (decision D5): a byte in Idle is consumed and nothing changes. -/
def Obligations.IdleDropsTheByte : Prop :=
  ∀ (s : State) (b : Byte), s.state = .idle → exec (.rxIdle b) s = .next s

/-- R64: a length byte of 4 to 32 is recorded, the checksum seeded and the index cleared; any other is a FramingError. -/
def Obligations.LengthByteIsRecordedOrDropped : Prop :=
  ∀ (s : State) (b : Byte), s.state = .awaitLength →
    (4 ≤ b.toNat ∧ b.toNat ≤ 0x20 → exec (.rxLen b) s = .next
      { s with frameLen := BitVec.ofNat 5 (b.toNat - 3), cksumRun := BitVec.ofNat 16 (0xFFFF - b.toNat), payloadIdx := 0,
               state := .collectPayload }) ∧
    (b.toNat ≤ 3 ∨ 0x21 ≤ b.toNat → exec (.rxLen b) s = .next
      { s with state := .idle, errors := s.errors ++ [.framingError] })

/-- R65: a payload byte is stored at the index, subtracted, and the index advanced; the last one leads to
AwaitChecksumLow. -/
def Obligations.PayloadByteIsStored : Prop :=
  ∀ (s : State) (b : Byte) (h : s.payloadIdx.toNat < 29), s.state = .collectPayload →
    exec (.rxData b) s = .next
      { s with
        payload := s.payload.set s.payloadIdx.toNat b
        cksumRun := BitVec.ofInt 16 ((s.cksumRun.toNat : Int) - (b.toNat : Int))
        payloadIdx := BitVec.ofNat 5 (s.payloadIdx.toNat + 1)
        state := if s.payloadIdx.toNat + 1 = s.frameLen.toNat then .awaitChecksumLow else .collectPayload }

/-- R66: the low checksum byte is held; nothing is compared. -/
def Obligations.LowChecksumByteIsHeld : Prop :=
  ∀ (s : State) (b : Byte), s.state = .awaitChecksumLow →
    exec (.rxCkl b) s = .next { s with cksumLo := b, state := .awaitChecksumHigh }

/-- R67: the received checksum is `256 * b + cksum_lo`; a mismatch drops the frame and changes nothing else, a match
classifies it. -/
def Obligations.HighChecksumByteGivesTheVerdict : Prop :=
  ∀ (s : State) (b : Byte), s.state = .awaitChecksumHigh →
    (b.toNat * 256 + s.cksumLo.toNat ≠ s.cksumRun.toNat → exec (.rxCkh b) s = .next
      { s with state := .idle, errors := s.errors ++ [.checksumMismatch] }) ∧
    (b.toNat * 256 + s.cksumLo.toNat = s.cksumRun.toNat →
      ∃ t, exec (.rxCkh b) s = .next t ∧ exec .dispatch s = .next t)

/-- A byte is stuck while a response is pending (S6, D6, entry 7), and there is no EMIT step with nothing pending (S7,
entry 9). -/
def Obligations.PendingDecidesWhoMayStep : Prop :=
  ∀ (s : State) (b : Byte) (now : Nat),
    (s.state = .respondPending → exec (.rxbyte b now) s = .fault .stuckWhilePending) ∧
    (s.state ≠ .respondPending → exec .emit s = .refused .nothingPending)

/-! ### The frame commands -/

/-- R73: the channel command first, on the whole byte; then a registered address with one payload byte; else dropped. Each
outcome is the command it names. -/
def Obligations.DispatchTakesTheFirstTestThatHolds : Prop :=
  ∀ (s : State), s.state = .awaitChecksumHigh →
    (s.payload[0] = 0x40 → ∃ t, exec .dispatch s = .next t ∧ exec (.channels s.lengthByte) s = .next t) ∧
    (s.payload[0] ≠ 0x40 → 1 ≤ s.payload[0].toNat % 16 → s.payload[0].toNat % 16 ≤ s.sensorCount.toNat →
      s.frameLen.toNat = 1 →
      exec .dispatch s = .next (s.poll (BitVec.ofNat 4 (s.payload[0].toNat % 16))
        (BitVec.ofNat 8 (s.payload[0].toNat / 16 * 16)))) ∧
    (s.payload[0] ≠ 0x40 →
      ¬ (1 ≤ s.payload[0].toNat % 16 ∧ s.payload[0].toNat % 16 ≤ s.sensorCount.toNat ∧ s.frameLen.toNat = 1) →
      ∃ t, exec .dispatch s = .next t ∧ exec (.unrecognised s.lengthByte s.payload[0]) s = .next t)

/-- DISPATCH runs the operation that the header of the frame decodes to (R54, R73, R96), and always completes. -/
def Obligations.DispatchRunsTheDecodedCommand : Prop :=
  ∀ s : State, s.state = .awaitChecksumHigh →
    ∃ t, exec .dispatch s = .next t ∧ exec (decodeRx s.registered (headerOf s.lengthByte s.payload[0])) s = .next t

/-- CHANNELS: 14 little-endian words from payload bytes 1 to 28, one count, one event, Idle; nothing else changes, whatever
the length byte and the sensor count (R74). For a length byte below 0x20 the values rest on decision D8 (R77, entry 22); the
wrap of the counter is decision D11 (entry 20), the event's step decision D19. -/
def Obligations.ChannelFrameWritesAllFourteen : Prop :=
  ∀ (s : State) (len : Byte), s.state = .awaitChecksumHigh → len.toNat = s.frameLen.toNat + 3 → s.payload[0] = 0x40 →
    ∃ t, exec (.channels len) s = .next t ∧
      (∀ i : Fin 14, t.ch[i].toNat =
        (s.payload[2 + 2 * i.val]'(channelBytes_inside i)).toNat * 256 +
          (s.payload[1 + 2 * i.val]'(channelLow_inside i)).toNat) ∧
      t.cntChannel = (s.cntChannel + 1) % 2 ^ s.cfg.cntW ∧ t.state = .idle ∧ t.events = s.events ++ [.channelsUpdated] ∧
      { t with ch := s.ch, cntChannel := s.cntChannel, state := s.state, events := s.events } = s

/-- R75 (the poll counter is decision D12): each poll row, at a registered address, enters RespondPending with the address
and the sub-command in place, and transmits nothing. -/
def Obligations.PollsEnterRespondPending : Prop :=
  ∀ (s : State) (a : Nibble), s.state = .awaitChecksumHigh → s.frameLen.toNat = 1 → 1 ≤ a.toNat →
    a.toNat ≤ s.sensorCount.toNat →
    (s.payload[0].toNat = 0x80 + a.toNat → exec (.pollDiscover a) s = .next
      { s with pendAddr := a, pendSub := 0x80, cntPoll := (s.cntPoll + 1) % 2 ^ s.cfg.cntW, state := .respondPending }) ∧
    (s.payload[0].toNat = 0x90 + a.toNat → exec (.pollType a) s = .next
      { s with pendAddr := a, pendSub := 0x90, cntPoll := (s.cntPoll + 1) % 2 ^ s.cfg.cntW, state := .respondPending }) ∧
    (s.payload[0].toNat = 0xA0 + a.toNat → exec (.pollValue a) s = .next
      { s with pendAddr := a, pendSub := 0xA0, cntPoll := (s.cntPoll + 1) % 2 ^ s.cfg.cntW, state := .respondPending }) ∧
    (∀ sub : Nibble, sub ≠ 0x8 → sub ≠ 0x9 → sub ≠ 0xA → s.payload[0].toNat = 16 * sub.toNat + a.toNat →
      exec (.pollOther sub a) s = .next
        { s with pendAddr := a, pendSub := BitVec.ofNat 8 (16 * sub.toNat),
                 cntPoll := (s.cntPoll + 1) % 2 ^ s.cfg.cntW, state := .respondPending })

/-- R76: every other frame is dropped and nothing but the state changes; the label (decision D18) is AddressOutOfRange for a
length-4 frame and UnknownCommand otherwise. -/
def Obligations.UnrecognisedFramesAreDropped : Prop :=
  ∀ (s : State) (len cmd : Byte), s.state = .awaitChecksumHigh → len.toNat = s.frameLen.toNat + 3 → s.payload[0] = cmd →
    cmd ≠ 0x40 →
    ¬ (1 ≤ cmd.toNat % 16 ∧ cmd.toNat % 16 ≤ s.sensorCount.toNat ∧ s.frameLen.toNat = 1) →
    exec (.unrecognised len cmd) s = .next
      { s with state := .idle,
               errors := s.errors ++ [if s.frameLen.toNat = 1 then .addressOutOfRange else .unknownCommand] }

/-- R78: the length guard. A frame whose wire length is not 4 starts no response and answers nothing, whatever its command;
the echo of a Type or Value reply is UNRECOGNISED; the echo of a Discover reply is not rejected. -/
def Obligations.OnlyLengthFourFramesArePolls : Prop :=
  (∀ s t : State, s.state = .awaitChecksumHigh → s.frameLen.toNat + 3 ≠ 4 → exec .dispatch s = .next t →
    t.state = .idle ∧ t.pendAddr = s.pendAddr ∧ t.pendSub = s.pendSub ∧ t.cntPoll = s.cntPoll ∧ t.tx = s.tx) ∧
  (∀ (reg : Nibble → Bool) (a : Nibble) (h : Word),
    (encodeHeader (.replyType a) = some (.tx, h) → decodeRx reg h = .unrecognised 0x06 (lo8 h)) ∧
    (encodeHeader (.replyValue a) = some (.tx, h) → decodeRx reg h = .unrecognised 0x06 (lo8 h)) ∧
    (encodeHeader (.replyDiscover a) = some (.tx, h) → reg a = true → decodeRx reg h = .pollDiscover a))

/-! ### The responder -/

/-- EMIT runs the outcome its sub-command selects (R80, R81) and returns to Idle with nothing pending (R87; the clearing after
a reply is decision D13); it touches nothing but the pending registers, the state, the reply counter and the histories. A
Type or Value reply needs an address that has a registry entry. -/
def Obligations.EmitRunsItsOutcomeAndReturnsToIdle : Prop :=
  ∀ s : State, s.state = .respondPending →
    (s.pendSub = 0x90 ∨ s.pendSub = 0xA0 → 1 ≤ s.pendAddr.toNat ∧ s.pendAddr.toNat ≤ 10) →
    ∃ t, exec .emit s = .next t ∧ exec (decodeEmit s.pendSub s.pendAddr) s = .next t ∧
      t.state = .idle ∧ t.pendAddr = 0 ∧ t.pendSub = 0 ∧
      { t with state := s.state, pendAddr := s.pendAddr, pendSub := s.pendSub, tx := s.tx, cntReply := s.cntReply,
               events := s.events, errors := s.errors } = s

/-- R51, R82: the four bytes of a Discover reply, which are those of the poll that asked for it. -/
def Obligations.DiscoverReplyBytes : Prop :=
  ∀ (s : State) (a : Nibble), s.state = .respondPending → s.pendSub = 0x80 → s.pendAddr = a →
    ∃ t ck, exec (.replyDiscover a) s = .next t ∧ ck = 0xFFFF - (0x04 + (0x80 + a.toNat)) ∧
      t.tx = s.tx ++ [0x04, BitVec.ofNat 8 (0x80 + a.toNat), BitVec.ofNat 8 (ck % 256), BitVec.ofNat 8 (ck / 256)] ∧
      t.tx = s.tx ++ discoverForm a

/-- R52: the six bytes of a Type reply. -/
def Obligations.TypeReplyBytes : Prop :=
  ∀ (s : State) (a : Nibble) (k : Fin 10), s.state = .respondPending → s.pendSub = 0x90 → s.pendAddr = a →
    a.toNat = k.val + 1 →
    ∃ t ck, exec (.replyType a) s = .next t ∧ ck = 0xFFFF - (0x06 + (0x90 + a.toNat) + s.sensorType[k].toNat + 0x02) ∧
      t.tx = s.tx ++ [0x06, BitVec.ofNat 8 (0x90 + a.toNat), s.sensorType[k], 0x02, BitVec.ofNat 8 (ck % 256),
        BitVec.ofNat 8 (ck / 256)]

/-- R53: the six bytes of a Value reply, the measurement low byte first. -/
def Obligations.ValueReplyBytes : Prop :=
  ∀ (s : State) (a : Nibble) (k : Fin 10), s.state = .respondPending → s.pendSub = 0xA0 → s.pendAddr = a →
    a.toNat = k.val + 1 →
    ∃ t v ck, exec (.replyValue a) s = .next t ∧ v = s.sensorValue[k].toNat ∧
      ck = 0xFFFF - (0x06 + (0xA0 + a.toNat) + v % 256 + v / 256) ∧
      t.tx = s.tx ++ [0x06, BitVec.ofNat 8 (0xA0 + a.toNat), BitVec.ofNat 8 (v % 256), BitVec.ofNat 8 (v / 256),
        BitVec.ofNat 8 (ck % 256), BitVec.ofNat 8 (ck / 256)]

/-- R85: an unknown sub-command transmits nothing, counts nothing and reports nothing; the response is cancelled. -/
def Obligations.CancelSendsNothing : Prop :=
  ∀ s : State, s.state = .respondPending → s.pendSub ≠ 0x80 → s.pendSub ≠ 0x90 → s.pendSub ≠ 0xA0 →
    exec .replyCancel s = .next
      { s with pendAddr := 0, pendSub := 0x00, state := .idle, errors := s.errors ++ [.unknownCommand] }

/-- A reply is counted once and reported with exactly the bytes transmitted (R26, R87, R94; decisions D12, D13, D19), whichever
of the three it is. -/
def Obligations.RepliesAreCountedAndReported : Prop :=
  ∀ (s t : State) (a : Nibble) (i : Instr), i = .replyDiscover a ∨ i = .replyType a ∨ i = .replyValue a →
    exec i s = .next t →
    ∃ bs, (bs.length = 4 ∨ bs.length = 6) ∧ t =
      { s with tx := s.tx ++ bs, events := s.events ++ [.replyReady bs], cntReply := (s.cntReply + 1) % 2 ^ s.cfg.cntW,
               pendAddr := 0, pendSub := 0, state := .idle }

/-! ### The host operations -/

/-- R90 (decisions D15, D22): a sensor registered while there is room gets the next address; its measurement is not
written. -/
def Obligations.AddSensorAppends : Prop :=
  ∀ (s : State) (x : Byte) (h : s.sensorCount.toNat < 10),
    exec (.addSensor x) s = .next
      { s with
        sensorType := s.sensorType.set s.sensorCount.toNat x
        sensorCount := BitVec.ofNat 4 (s.sensorCount.toNat + 1)
        results := s.results ++ [.address (BitVec.ofNat 4 (s.sensorCount.toNat + 1))] }

/-- R105: a full registry is not changed and the call returns 10. -/
def Obligations.FullRegistryIsUnchanged : Prop :=
  ∀ (s : State) (x : Byte), s.sensorCount.toNat = 10 →
    exec (.addSensor x) s = .next
      { s with results := s.results ++ [.address 10], errors := s.errors ++ [.registryFull] }

/-- R91 (address 0 is decision D14): one word at a registered address, nothing at any other. -/
def Obligations.SetMeasWritesOneEntry : Prop :=
  ∀ (s : State) (a : Byte) (v : Word),
    (∀ k : Fin 10, a.toNat = k.val + 1 → a.toNat ≤ s.sensorCount.toNat →
      exec (.setMeas a v) s = .next { s with sensorValue := s.sensorValue.set k v }) ∧
    (a.toNat = 0 ∨ s.sensorCount.toNat < a.toNat →
      exec (.setMeas a v) s = .next { s with errors := s.errors ++ [.addressOutOfRange] })

/-- R92, R93 (decisions D12, D16): the reads return what is stored and change nothing. -/
def Obligations.ReadsAnswerAndChangeNothing : Prop :=
  ∀ s : State,
    (∀ i : Fin 14, exec (.readChannel i) s = .next { s with results := s.results ++ [.channel s.ch[i]] }) ∧
    (∀ n : Nat, 14 ≤ n → exec (.readChannel n) s = .next { s with results := s.results ++ [.channel 0x0000] }) ∧
    exec .readCounters s = .next { s with results := s.results ++ [.counters s.cntChannel s.cntPoll s.cntReply] }

/-! ### Encodings -/

/-- Decode and encode agree on every received frame: for every well-formed frame operation, with every operand and data of the
length its header says, reading what the encoder writes gives the operation, its data and what follows. -/
def Obligations.DecodeOfEncodeReceived : Prop :=
  ∀ (reg : Nibble → Bool) (i : Instr) (h : Word) (data bs rest : List Byte), i.wfFor reg = true →
    encodeHeader i = some (.rx, h) → (hi8 h).toNat = data.length + 4 → encode i data = some bs →
    decodeRxFrame reg (bs ++ rest) = .ok (i, data, rest)

/-- Decode and encode agree on every transmitted frame. -/
def Obligations.DecodeOfEncodeTransmitted : Prop :=
  ∀ (i : Instr) (h : Word) (data bs rest : List Byte), encodeHeader i = some (.tx, h) →
    (hi8 h).toNat = data.length + 4 → encode i data = some bs → decodeTxFrame (bs ++ rest) = .ok (i, data, rest)

/-- The other direction: a received frame that decodes is exactly what the encoder writes for its operation, which is
well-formed, followed by the rest; so no two byte strings of a frame share an operation and its data. -/
def Obligations.EncodeOfDecodeReceived : Prop :=
  ∀ (reg : Nibble → Bool) (bs data rest : List Byte) (i : Instr), decodeRxFrame reg bs = .ok (i, data, rest) →
    i.wfFor reg = true ∧ ∃ fs, encode i data = some fs ∧ bs = fs ++ rest

/-- R54: the command map, in its order, on a length byte `len` and a command byte `c`. -/
def Obligations.DecodeFollowsTheCommandMap : Prop :=
  ∀ (s : State) (len c : Byte),
    (c = 0x40 → decodeRx s.registered (headerOf len c) = .channels len) ∧
    (c ≠ 0x40 → 1 ≤ c.toNat % 16 → c.toNat % 16 ≤ s.sensorCount.toNat → len = 4 →
      decodeRx s.registered (headerOf len c) =
        if c.toNat / 16 = 8 then .pollDiscover (BitVec.ofNat 4 c.toNat)
        else if c.toNat / 16 = 9 then .pollType (BitVec.ofNat 4 c.toNat)
        else if c.toNat / 16 = 10 then .pollValue (BitVec.ofNat 4 c.toNat)
        else .pollOther (BitVec.ofNat 4 (c.toNat / 16)) (BitVec.ofNat 4 c.toNat)) ∧
    (c ≠ 0x40 → ¬ (1 ≤ c.toNat % 16 ∧ c.toNat % 16 ≤ s.sensorCount.toNat ∧ len = 4) →
      decodeRx s.registered (headerOf len c) = .unrecognised len c)

/-- Walking the rows of spec/opcode_table.json by mask, pattern and condition (R96) picks the row of the operation that the
command map (R54) gives, for every header. -/
def Obligations.TableWalkAgreesWithTheCommandMap : Prop :=
  ∀ (reg : Nibble → Bool) (h : Word),
    walkRxRows reg h = some (match decodeRx reg h with
      | .channels _ => "CHANNELS"
      | .pollDiscover _ => "POLL.DISCOVER"
      | .pollType _ => "POLL.TYPE"
      | .pollValue _ => "POLL.VALUE"
      | .pollOther _ _ => "POLL.OTHER"
      | _ => "UNRECOGNISED")

/-! ### Whole frames -/

/-- The byte-by-byte receiver refines the whole-frame decoder: bytes that decode to the operation `i`, presented after a gap
and with no gap between them, run exactly `i` in the state in which the receiver holds that frame (R60 to R67, R73; the time
kept at each byte is decision D3). -/
def Obligations.WholeFrameRunsItsCommand : Prop :=
  ∀ (s : State) (rs : List RxByte) (i : Instr) (data : List Byte), s.state ≠ .respondPending →
    oneBurst s.cfg s.lastMs rs → decodeRxFrame s.registered (rs.map RxByte.byte) = .ok (i, data, []) →
    ∃ t h, encodeHeader i = some (.rx, h) ∧ receive rs s = .next t ∧
      exec i (s.atLastByte (lo8 h :: data) (lo8 (checksum (hi8 h :: lo8 h :: data))) (lastTime s.cfg s.lastMs rs)) = .next t

/-- A frame with a wrong checksum is dropped whole at its last byte: Idle, the buffer and the receiver's own registers as the
bytes left them, and nothing else changed: no channel, counter, pending response, registry entry or transmitted byte
(R67, R102, R109; the time kept is decision D3). -/
def Obligations.BadChecksumFrameIsDropped : Prop :=
  ∀ (s : State) (rs : List RxByte) (len lo hi : Byte) (payload : List Byte), s.state ≠ .respondPending →
    oneBurst s.cfg s.lastMs rs → rs.map RxByte.byte = len :: (payload ++ [lo, hi]) → 1 ≤ payload.length →
    payload.length ≤ 29 → len.toNat = payload.length + 3 →
    len.toNat + byteSum payload + (hi.toNat * 256 + lo.toNat) ≠ 0xFFFF →
    receive rs s = .next
      { s.atLastByte payload lo (lastTime s.cfg s.lastMs rs) with
        state := .idle, errors := s.errors ++ [.checksumMismatch] }

/-- A bad length byte after a gap, and every byte after it until the next gap, changes nothing but the time (and, once, the
error label): R55, R63, R101, R110, with decisions D3 and D5. -/
def Obligations.BadLengthDropsUntilAGap : Prop :=
  ∀ (s : State) (r : RxByte) (rs : List RxByte), s.state ≠ .respondPending → oneBurst s.cfg s.lastMs (r :: rs) →
    r.byte.toNat ≤ 3 ∨ 0x20 < r.byte.toNat →
    receive (r :: rs) s = .next
      { s with state := .idle, lastMs := lastTime s.cfg s.lastMs (r :: rs), errors := s.errors ++ [.framingError] }

/-- R126, R63: in Idle nothing but the time changes, however many bytes come, as long as no two are 3 ms apart
(decisions D3 and D5). -/
def Obligations.NoResynchronisationWithoutSilence : Prop :=
  ∀ (s : State) (rs : List RxByte), s.state = .idle → noGaps s.cfg s.lastMs rs →
    receive rs s = .next { s with lastMs := lastTime s.cfg s.lastMs rs }

/-- R72: bytes with a valid length byte and as many bytes as it says are a frame exactly when length byte, payload and the
checksum as ONE word add up to 0xFFFF (C2). -/
def Obligations.AcceptedIffTheSumIsFFFF : Prop :=
  ∀ (len cmd lo hi : Byte) (data rest : List Byte), len.toNat = data.length + 4 → len.toNat ≤ 32 →
    (parseFrame (len :: cmd :: (data ++ lo :: hi :: rest)) = .ok ⟨headerOf len cmd, data, rest⟩ ↔
      len.toNat + byteSum (cmd :: data) + (hi.toNat * 256 + lo.toNat) = 0xFFFF)

/-- R72(a): changing any one byte of a frame but its length byte makes it invalid. -/
def Obligations.SingleByteErrorsAreDetected : Prop :=
  ∀ (bs : List Byte) (p : Parsed) (j : Nat) (b : Byte), parseFrame bs = .ok p → p.rest = [] → 1 ≤ j →
    ∀ h : j < bs.length, b ≠ bs[j] → parseFrame (bs.set j b) = .error .badChecksum

/-- R77 (decision D8): a channel command in a short frame updates all 14 channels; a byte of a channel that lies
in the frame is taken from it, and one that lies beyond it is what the buffer held before the frame. -/
def Obligations.ShortChannelFrameReadsTheOldBuffer : Prop :=
  ∀ (s : State) (rs : List RxByte) (data bs : List Byte), s.state ≠ .respondPending → oneBurst s.cfg s.lastMs rs →
    data.length ≤ 28 → encode (.channels (BitVec.ofNat 8 (data.length + 4))) data = some bs → rs.map RxByte.byte = bs →
    ∃ t, receive rs s = .next t ∧ t.events = s.events ++ [.channelsUpdated] ∧
      (∀ (i : Fin 14) (h : 2 * i.val + 1 < data.length), t.ch[i] = le16 data[2 * i.val] data[2 * i.val + 1]) ∧
      (∀ (i : Fin 14) (h : data.length = 2 * i.val + 1), t.ch[i] = le16 data[2 * i.val] (s.payload[2 + 2 * i.val]'(channelBytes_inside i))) ∧
      (∀ i : Fin 14, data.length ≤ 2 * i.val → t.ch[i] =
        le16 (s.payload[1 + 2 * i.val]'(channelLow_inside i)) (s.payload[2 + 2 * i.val]'(channelBytes_inside i)))

/-! ### What steps may do -/

/-- Every step keeps what holds of every reachable state (R8, R12 to R26, R31, R69, R72, R94; the pending
registers 0 after a reply are decision D13, an unregistered entry at its reset value is decision D15, and the counts of
events are decisions D12 and D19). -/
def Obligations.StepKeepsInv : Prop :=
  ∀ s t : State, s.Inv → step s = .next t → t.Inv

/-- The reset state is such a state (its values are decisions D4, D9, D10 and the empty inputs of entries 3 and 13). -/
def Obligations.ResetHasInv : Prop := State.reset.Inv

/-- In such a state no step faults or is refused: the block never stops (R115, R123), and its array indices stay inside
(R31, R33). -/
def Obligations.InvStatesNeverStop : Prop :=
  ∀ s : State, s.Inv → ∃ t, step s = .next t

/-- R71: the running checksum of a frame in progress is never below 0xE2FC (16-bit arithmetic is decision
D21). -/
def Obligations.RunningChecksumNeverBorrows : Prop :=
  ∀ s : State, s.Inv → s.inFrame → 0xE2FC ≤ s.cksumRun.toNat

/-- Only a completed sensor poll starts a response: the driver's invocation that takes the last byte of a frame, with no gap
before it and a matching checksum, and the frame is a poll of a registered address. It transmits nothing (R69, R75, R88; the poll counter is
decision D12). -/
def Obligations.OnlyAPollStartsAResponse : Prop :=
  ∀ s t : State, step s = .next t → s.state ≠ .respondPending → t.state = .respondPending →
    s.validatesFrame t ∧ s.frameLen.toNat = 1 ∧ s.payload[0] ≠ 0x40 ∧
      t.pendAddr.toNat = s.payload[0].toNat % 16 ∧ t.pendSub.toNat = s.payload[0].toNat / 16 * 16 ∧
      1 ≤ t.pendAddr.toNat ∧ t.pendAddr.toNat ≤ s.sensorCount.toNat ∧
      t.cntPoll = (s.cntPoll + 1) % 2 ^ s.cfg.cntW ∧ t.tx = s.tx ∧ t.events = s.events ∧ t.ch = s.ch

/-- A pending response is left only by the driver's EMIT, to Idle, or by RESET; until then no byte is taken (R68, R69, R87,
R123, with decisions D6 and D13; that the waiting bytes survive RESET is the model's own choice, entry 13). -/
def Obligations.PendingIsLeftOnlyByEmitOrReset : Prop :=
  ∀ s t : State, step s = .next t → s.state = .respondPending →
    t.rx = s.rx ∧
    (t.state = .respondPending ∧ t.pendAddr = s.pendAddr ∧ t.pendSub = s.pendSub ∧ t.tx = s.tx ∨
     t.state = .idle ∧ t.pendAddr = 0 ∧ t.pendSub = 0 ∧
       (s.turns.head? = some .driver ∨ s.turns.head? = some (.host .reset)))

/-- R94 (decision D19): a step other than RESET emits at most one event. ChannelsUpdated comes only from the driver's
invocation that takes the last byte of a frame, with no gap before it and a matching checksum, whose command is 0x40, and it
comes with the channels decoded from the buffer, whatever the length of the frame (decision D8, entry 22), and with one count.
ReplyReady comes only from the driver's invocation in RespondPending, with exactly the bytes transmitted and one count
(decision D12, entry 20). Without an event neither the channels nor the transmitted bytes nor these counters change. -/
def Obligations.StepEmitsAtMostOneEvent : Prop :=
  ∀ s t : State, step s = .next t → s.turns.head? ≠ some (.host .reset) →
    (t.events = s.events ∧ t.ch = s.ch ∧ t.cntChannel = s.cntChannel ∧ t.tx = s.tx ∧ t.cntReply = s.cntReply) ∨
    (t.events = s.events ++ [.channelsUpdated] ∧ t.ch = channelWords s.payload ∧
      t.cntChannel = (s.cntChannel + 1) % 2 ^ s.cfg.cntW ∧ t.tx = s.tx ∧ t.cntReply = s.cntReply ∧
      s.validatesFrame t ∧ s.payload[0] = 0x40 ∧ t.state = .idle) ∨
    (∃ bs, t.events = s.events ++ [.replyReady bs] ∧ t.tx = s.tx ++ bs ∧ t.ch = s.ch ∧ t.cntChannel = s.cntChannel ∧
      t.cntReply = (s.cntReply + 1) % 2 ^ s.cfg.cntW ∧ s.turns.head? = some .driver ∧ s.state = .respondPending ∧
      t.state = .idle)

/-- R110, R111: a host call other than RESET touches the registry and its results alone; no FSM state, frame register, pending
response, channel, counter or transmitted byte. -/
def Obligations.HostMovesTouchOnlyTheRegistry : Prop :=
  ∀ (s t : State) (c : HostCall) (ts : List Turn), s.turns = .host c :: ts → c ≠ .reset → step s = .next t →
    { t with sensorCount := s.sensorCount, sensorType := s.sensorType, sensorValue := s.sensorValue,
             results := s.results, errors := s.errors, turns := s.turns } = s

/-- R33, R111: the block itself never writes the registry and returns nothing to the host. -/
def Obligations.DriverMovesLeaveTheRegistry : Prop :=
  ∀ (s t : State) (ts : List Turn), s.turns = .driver :: ts → step s = .next t →
    t.sensorCount = s.sensorCount ∧ t.sensorType = s.sensorType ∧ t.sensorValue = s.sensorValue ∧ t.results = s.results

/-- R21, R22: but for RESET, sensors are never removed and a type once set never changes. -/
def Obligations.RegisteredSensorsPersist : Prop :=
  ∀ s t : State, step s = .next t → s.turns.head? ≠ some (.host .reset) →
    s.sensorCount.toNat ≤ t.sensorCount.toNat ∧
    ∀ k : Fin 10, k.val < s.sensorCount.toNat → t.sensorType[k] = s.sensorType[k]

/-- The histories a model keeps (R27, R100) decide nothing: from states that differ in them alone, steps reach states that
differ in them alone. -/
def Obligations.GhostsDecideNothing : Prop :=
  ∀ s s' t : State, s.sameButGhosts s' → step s = .next t → ∃ t', step s' = .next t' ∧ t.sameButGhosts t'

/-- A byte leaves the receive stream only from its front, to a driver's invocation with no response pending, and its time is
kept (R43, with decisions D3, D6, D20); the parameters never change (R8). That each step consumes one move of the list `turns`,
and none where none is left, is the model's own choice (entries 1 and 14), and so is that RESET leaves the waiting bytes, the
moves and the parameters alone (entry 13). -/
def Obligations.InputsAreConsumedInOrder : Prop :=
  ∀ s t : State, step s = .next t →
    t.turns = s.turns.tail ∧ t.cfg = s.cfg ∧
    (t.rx = s.rx ∨
      ∃ r, s.rx = r :: t.rx ∧ s.turns.head? = some .driver ∧ s.state ≠ .respondPending ∧
        t.lastMs = r.nowMs % 2 ^ s.cfg.timeW)

/-! ### Polls and their replies together -/

/-- R88: a measurement set between a poll and its EMIT is the one the Value reply carries, low byte first. -/
def Obligations.ValueReplyCarriesTheLastMeasurement : Prop :=
  ∀ (s : State) (v : Word), s.state = .respondPending → s.pendSub = 0xA0 → 1 ≤ s.pendAddr.toNat →
    s.pendAddr.toNat ≤ s.sensorCount.toNat → s.sensorCount.toNat ≤ 10 →
    ∃ u t ckLo ckHi, exec (.setMeas (s.pendAddr.setWidth 8) v) s = .next u ∧ exec .emit u = .next t ∧
      t.tx = s.tx ++ [0x06, BitVec.ofNat 8 (0xA0 + s.pendAddr.toNat), BitVec.ofNat 8 (v.toNat % 256),
        BitVec.ofNat 8 (v.toNat / 256), ckLo, ckHi] ∧
      0x06 + (0xA0 + s.pendAddr.toNat) + v.toNat % 256 + v.toNat / 256 + (ckHi.toNat * 256 + ckLo.toNat) = 0xFFFF

/-- The source's property P3 with R75 and R88: a Discover poll for a registered address, received after a gap, is answered by
the next EMIT with exactly its own bytes, and not before. -/
def Obligations.DiscoverPollIsAnsweredByEmit : Prop :=
  ∀ (s : State) (rs : List RxByte) (a : Nibble), s.state ≠ .respondPending → oneBurst s.cfg s.lastMs rs → 1 ≤ a.toNat →
    a.toNat ≤ s.sensorCount.toNat → rs.map RxByte.byte = discoverForm a →
    ∃ u t, receive rs s = .next u ∧ u.tx = s.tx ∧ u.state = .respondPending ∧ exec .emit u = .next t ∧
      t.tx = s.tx ++ discoverForm a ∧ t.state = .idle
end

