-- ==== Sys2Proof/Laws/Fields.lean ====
section
/-! SUPPORT. The fields of bytes and words (Decode.lean) as arithmetic, and how composing and taking apart undo each other. -/

namespace Sys2Proof

theorem lo8_toNat (w : Word) : (lo8 w).toNat = w.toNat % 256 := by simp [lo8]

theorem hi8_toNat (w : Word) : (hi8 w).toNat = w.toNat / 256 := by
  simp [hi8, Nat.shiftRight_eq_div_pow]; omega

/-- R34: the low byte first: `le16(lo, hi)` is `256 * hi + lo`. -/
theorem le16_toNat (lo hi : Byte) : (le16 lo hi).toNat = hi.toNat * 256 + lo.toNat := by
  have hl := lo.isLt
  have hh := hi.isLt
  have e : hi.toNat <<< 8 ||| lo.toNat = hi.toNat <<< 8 + lo.toNat := (Nat.shiftLeft_add_eq_or_of_lt hl _).symm
  simp only [le16, BitVec.toNat_or, BitVec.toNat_shiftLeft, BitVec.toNat_setWidth]
  rw [Nat.mod_eq_of_lt (by omega : hi.toNat < 2 ^ 16), Nat.mod_eq_of_lt (by omega : lo.toNat < 2 ^ 16),
    Nat.mod_eq_of_lt (by rw [Nat.shiftLeft_eq]; omega), e, Nat.shiftLeft_eq]

@[simp] theorem lo8_le16 (lo hi : Byte) : lo8 (le16 lo hi) = lo := by
  apply BitVec.eq_of_toNat_eq; rw [lo8_toNat, le16_toNat]; omega

@[simp] theorem hi8_le16 (lo hi : Byte) : hi8 (le16 lo hi) = hi := by
  apply BitVec.eq_of_toNat_eq; rw [hi8_toNat, le16_toNat]; omega

@[simp] theorem le16_lo8_hi8 (w : Word) : le16 (lo8 w) (hi8 w) = w := by
  apply BitVec.eq_of_toNat_eq; rw [le16_toNat, lo8_toNat, hi8_toNat]; omega

@[simp] theorem lo8_headerOf (len cmd : Byte) : lo8 (headerOf len cmd) = cmd := lo8_le16 cmd len

@[simp] theorem hi8_headerOf (len cmd : Byte) : hi8 (headerOf len cmd) = len := hi8_le16 cmd len

@[simp] theorem headerOf_hi8_lo8 (w : Word) : headerOf (hi8 w) (lo8 w) = w := le16_lo8_hi8 w

theorem addrOf_toNat (c : Byte) : (addrOf c).toNat = c.toNat % 16 := by simp [addrOf]

theorem subNibble_toNat (c : Byte) : (subNibble c).toNat = c.toNat / 16 := by
  simp [subNibble, Nat.shiftRight_eq_div_pow]; omega

theorem subOf_toNat : ∀ c : Byte, (subOf c).toNat = c.toNat / 16 * 16 := by decide

@[simp] theorem subInPlace_subNibble : ∀ c : Byte, subInPlace (subNibble c) = subOf c := by decide

@[simp] theorem addrOf_cmdByte : ∀ sub a : Nibble, addrOf (cmdByte (subInPlace sub) a) = a := by decide

@[simp] theorem subOf_cmdByte : ∀ sub a : Nibble, subOf (cmdByte (subInPlace sub) a) = subInPlace sub := by decide

@[simp] theorem subNibble_cmdByte : ∀ sub a : Nibble, subNibble (cmdByte (subInPlace sub) a) = sub := by decide

/-- R48: a command byte is its sub-command plus its address. -/
@[simp] theorem cmdByte_subOf_addrOf : ∀ c : Byte, cmdByte (subOf c) (addrOf c) = c := by decide

theorem subDiscover_inPlace : Config.subDiscover = subInPlace 0x8 := by decide

theorem subType_inPlace : Config.subType = subInPlace 0x9 := by decide

theorem subValue_inPlace : Config.subValue = subInPlace 0xA := by decide

/-- R48: the three sub-commands with a row of their own, as high nibbles. -/
theorem subInPlace_own_row : ∀ sub : Nibble,
    (subInPlace sub = Config.subDiscover ∨ subInPlace sub = Config.subType ∨ subInPlace sub = Config.subValue) ↔
      (sub = 0x8 ∨ sub = 0x9 ∨ sub = 0xA) := by decide

theorem subInPlace_inj : ∀ a b : Nibble, subInPlace a = subInPlace b ↔ a = b := by decide

end Sys2Proof
end

