-- ==== Sys2Proof/Laws/Checksum.lean ====
section
/-! SUPPORT. The checksum (R70 to R72): the sum byte by byte equals the sum at once, and no borrow for a frame. -/

namespace Sys2Proof

@[simp] theorem sum16_nil : sum16 [] = 0 := rfl

@[simp] theorem sum16_cons (b : Byte) (bs : List Byte) : sum16 (b :: bs) = b.setWidth 16 + sum16 bs := rfl

theorem sum16_append (as bs : List Byte) : sum16 (as ++ bs) = sum16 as + sum16 bs := by
  induction as with
  | nil => simp
  | cons a as ih => simp [ih, BitVec.add_assoc]

/-- R70: the word sum is the sum of the bytes as numbers, reduced. -/
theorem sum16_toNat (bs : List Byte) : (sum16 bs).toNat = (bs.map BitVec.toNat).sum % 65536 := by
  induction bs with
  | nil => rfl
  | cons b bs ih => simp [ih]

/-- R70: subtracting one more byte is the checksum of the sequence with that byte at its end. -/
theorem checksum_snoc (bs : List Byte) (b : Byte) : checksum (bs ++ [b]) = checksum bs - b.setWidth 16 := by
  simp [checksum, sum16_append, BitVec.sub_sub]

/-- R71: a sum of bytes is at most 255 for each. -/
theorem byte_sum_le (bs : List Byte) : (bs.map BitVec.toNat).sum ≤ 255 * bs.length := by
  induction bs with
  | nil => simp
  | cons b bs ih => have := b.isLt; simp; omega

/-- R70, R71: where the sum fits, the checksum is `0xFFFF` minus the sum, with no reduction. -/
theorem checksum_toNat (bs : List Byte) (h : (bs.map BitVec.toNat).sum ≤ 0xFFFF) :
    (checksum bs).toNat = 0xFFFF - (bs.map BitVec.toNat).sum := by
  have e := sum16_toNat bs
  have hs : (Config.ckSeed : Word).toNat = 65535 := rfl
  rw [checksum, BitVec.toNat_sub, e, hs]
  omega

end Sys2Proof
end

