-- ==== Sys2Proof/Laws/Frames.lean ====
section
/-! SUPPORT. What a byte string that parses as a frame looks like. -/

namespace Sys2Proof

/-- Everything `parseFrame` can have accepted: a valid length byte, the command, as much data as the length says, the
checksum of all of it low byte first, and the rest. -/
theorem parseFrame_ok {bs : List Byte} {p : Parsed} (h : parseFrame bs = .ok p) :
    ∃ len cmd lo hi, validLength len = true ∧ len.toNat = p.data.length + 4 ∧ p.hdr = headerOf len cmd ∧
      le16 lo hi = checksum (len :: cmd :: p.data) ∧ bs = len :: cmd :: (p.data ++ lo :: hi :: p.rest) := by
  unfold parseFrame at h
  split at h
  · cases h
  next len tail =>
  split at h
  next hv =>
    split at h
    next cmd data lo hi rest q1 q2 =>
      split at h
      next hc =>
        cases h
        refine ⟨len, cmd, lo, hi, hv, ?_, rfl, hc, ?_⟩
        · have h1 := congrArg List.length q1
          have h2 := congrArg List.length q2
          simp [Config.overhead] at h1 h2
          simp [validLength, Config.overhead] at hv
          simp only; omega
        · have h3 := List.take_append_drop (len.toNat - Config.overhead) tail
          rw [q1, q2] at h3; rw [← h3]; rfl
      · cases h
    · cases h
  · cases h

end Sys2Proof
end

