-- ==== Sys2Proof/Laws/State.lean ====
section
/-! SUPPORT. What each named update of the state does to each field: one lemma per field per update, true by rfl, so that no
proof unfolds a record update. -/

namespace Sys2Proof.Machine

@[simp] theorem State.label_state (s : State) (e : ErrorName) : (s.label e).state = s.state := rfl
@[simp] theorem State.label_frameLen (s : State) (e : ErrorName) : (s.label e).frameLen = s.frameLen := rfl
@[simp] theorem State.label_payloadIdx (s : State) (e : ErrorName) : (s.label e).payloadIdx = s.payloadIdx := rfl
@[simp] theorem State.label_payload (s : State) (e : ErrorName) : (s.label e).payload = s.payload := rfl
@[simp] theorem State.label_cksumRun (s : State) (e : ErrorName) : (s.label e).cksumRun = s.cksumRun := rfl
@[simp] theorem State.label_cksumLo (s : State) (e : ErrorName) : (s.label e).cksumLo = s.cksumLo := rfl
@[simp] theorem State.label_lastMs (s : State) (e : ErrorName) : (s.label e).lastMs = s.lastMs := rfl
@[simp] theorem State.label_pendAddr (s : State) (e : ErrorName) : (s.label e).pendAddr = s.pendAddr := rfl
@[simp] theorem State.label_pendSub (s : State) (e : ErrorName) : (s.label e).pendSub = s.pendSub := rfl
@[simp] theorem State.label_ch (s : State) (e : ErrorName) : (s.label e).ch = s.ch := rfl
@[simp] theorem State.label_sensorCount (s : State) (e : ErrorName) : (s.label e).sensorCount = s.sensorCount := rfl
@[simp] theorem State.label_sensorType (s : State) (e : ErrorName) : (s.label e).sensorType = s.sensorType := rfl
@[simp] theorem State.label_sensorValue (s : State) (e : ErrorName) : (s.label e).sensorValue = s.sensorValue := rfl
@[simp] theorem State.label_cntChannel (s : State) (e : ErrorName) : (s.label e).cntChannel = s.cntChannel := rfl
@[simp] theorem State.label_cntPoll (s : State) (e : ErrorName) : (s.label e).cntPoll = s.cntPoll := rfl
@[simp] theorem State.label_cntReply (s : State) (e : ErrorName) : (s.label e).cntReply = s.cntReply := rfl
@[simp] theorem State.label_tx (s : State) (e : ErrorName) : (s.label e).tx = s.tx := rfl
@[simp] theorem State.label_events (s : State) (e : ErrorName) : (s.label e).events = s.events := rfl
@[simp] theorem State.label_results (s : State) (e : ErrorName) : (s.label e).results = s.results := rfl
@[simp] theorem State.label_errors (s : State) (e : ErrorName) : (s.label e).errors = s.errors ++ [e] := rfl
@[simp] theorem State.label_rx (s : State) (e : ErrorName) : (s.label e).rx = s.rx := rfl
@[simp] theorem State.label_turns (s : State) (e : ErrorName) : (s.label e).turns = s.turns := rfl
@[simp] theorem State.label_cfg (s : State) (e : ErrorName) : (s.label e).cfg = s.cfg := rfl

@[simp] theorem State.raiseToIdle_state (s : State) (e : ErrorName) : (s.raiseToIdle e).state = .idle := rfl
@[simp] theorem State.raiseToIdle_frameLen (s : State) (e : ErrorName) : (s.raiseToIdle e).frameLen = s.frameLen := rfl
@[simp] theorem State.raiseToIdle_payloadIdx (s : State) (e : ErrorName) : (s.raiseToIdle e).payloadIdx = s.payloadIdx := rfl
@[simp] theorem State.raiseToIdle_payload (s : State) (e : ErrorName) : (s.raiseToIdle e).payload = s.payload := rfl
@[simp] theorem State.raiseToIdle_cksumRun (s : State) (e : ErrorName) : (s.raiseToIdle e).cksumRun = s.cksumRun := rfl
@[simp] theorem State.raiseToIdle_cksumLo (s : State) (e : ErrorName) : (s.raiseToIdle e).cksumLo = s.cksumLo := rfl
@[simp] theorem State.raiseToIdle_lastMs (s : State) (e : ErrorName) : (s.raiseToIdle e).lastMs = s.lastMs := rfl
@[simp] theorem State.raiseToIdle_pendAddr (s : State) (e : ErrorName) : (s.raiseToIdle e).pendAddr = s.pendAddr := rfl
@[simp] theorem State.raiseToIdle_pendSub (s : State) (e : ErrorName) : (s.raiseToIdle e).pendSub = s.pendSub := rfl
@[simp] theorem State.raiseToIdle_ch (s : State) (e : ErrorName) : (s.raiseToIdle e).ch = s.ch := rfl
@[simp] theorem State.raiseToIdle_sensorCount (s : State) (e : ErrorName) : (s.raiseToIdle e).sensorCount = s.sensorCount := rfl
@[simp] theorem State.raiseToIdle_sensorType (s : State) (e : ErrorName) : (s.raiseToIdle e).sensorType = s.sensorType := rfl
@[simp] theorem State.raiseToIdle_sensorValue (s : State) (e : ErrorName) : (s.raiseToIdle e).sensorValue = s.sensorValue := rfl
@[simp] theorem State.raiseToIdle_cntChannel (s : State) (e : ErrorName) : (s.raiseToIdle e).cntChannel = s.cntChannel := rfl
@[simp] theorem State.raiseToIdle_cntPoll (s : State) (e : ErrorName) : (s.raiseToIdle e).cntPoll = s.cntPoll := rfl
@[simp] theorem State.raiseToIdle_cntReply (s : State) (e : ErrorName) : (s.raiseToIdle e).cntReply = s.cntReply := rfl
@[simp] theorem State.raiseToIdle_tx (s : State) (e : ErrorName) : (s.raiseToIdle e).tx = s.tx := rfl
@[simp] theorem State.raiseToIdle_events (s : State) (e : ErrorName) : (s.raiseToIdle e).events = s.events := rfl
@[simp] theorem State.raiseToIdle_results (s : State) (e : ErrorName) : (s.raiseToIdle e).results = s.results := rfl
@[simp] theorem State.raiseToIdle_errors (s : State) (e : ErrorName) : (s.raiseToIdle e).errors = s.errors ++ [e] := rfl
@[simp] theorem State.raiseToIdle_rx (s : State) (e : ErrorName) : (s.raiseToIdle e).rx = s.rx := rfl
@[simp] theorem State.raiseToIdle_turns (s : State) (e : ErrorName) : (s.raiseToIdle e).turns = s.turns := rfl
@[simp] theorem State.raiseToIdle_cfg (s : State) (e : ErrorName) : (s.raiseToIdle e).cfg = s.cfg := rfl

@[simp] theorem State.applyGap_state (s : State) (now : Nat) : (s.applyGap now).state = if s.gapBefore now then .awaitLength else s.state := rfl
@[simp] theorem State.applyGap_frameLen (s : State) (now : Nat) : (s.applyGap now).frameLen = s.frameLen := rfl
@[simp] theorem State.applyGap_payloadIdx (s : State) (now : Nat) : (s.applyGap now).payloadIdx = s.payloadIdx := rfl
@[simp] theorem State.applyGap_payload (s : State) (now : Nat) : (s.applyGap now).payload = s.payload := rfl
@[simp] theorem State.applyGap_cksumRun (s : State) (now : Nat) : (s.applyGap now).cksumRun = s.cksumRun := rfl
@[simp] theorem State.applyGap_cksumLo (s : State) (now : Nat) : (s.applyGap now).cksumLo = s.cksumLo := rfl
@[simp] theorem State.applyGap_lastMs (s : State) (now : Nat) : (s.applyGap now).lastMs = now % 2 ^ s.cfg.timeW := rfl
@[simp] theorem State.applyGap_pendAddr (s : State) (now : Nat) : (s.applyGap now).pendAddr = s.pendAddr := rfl
@[simp] theorem State.applyGap_pendSub (s : State) (now : Nat) : (s.applyGap now).pendSub = s.pendSub := rfl
@[simp] theorem State.applyGap_ch (s : State) (now : Nat) : (s.applyGap now).ch = s.ch := rfl
@[simp] theorem State.applyGap_sensorCount (s : State) (now : Nat) : (s.applyGap now).sensorCount = s.sensorCount := rfl
@[simp] theorem State.applyGap_sensorType (s : State) (now : Nat) : (s.applyGap now).sensorType = s.sensorType := rfl
@[simp] theorem State.applyGap_sensorValue (s : State) (now : Nat) : (s.applyGap now).sensorValue = s.sensorValue := rfl
@[simp] theorem State.applyGap_cntChannel (s : State) (now : Nat) : (s.applyGap now).cntChannel = s.cntChannel := rfl
@[simp] theorem State.applyGap_cntPoll (s : State) (now : Nat) : (s.applyGap now).cntPoll = s.cntPoll := rfl
@[simp] theorem State.applyGap_cntReply (s : State) (now : Nat) : (s.applyGap now).cntReply = s.cntReply := rfl
@[simp] theorem State.applyGap_tx (s : State) (now : Nat) : (s.applyGap now).tx = s.tx := rfl
@[simp] theorem State.applyGap_events (s : State) (now : Nat) : (s.applyGap now).events = s.events := rfl
@[simp] theorem State.applyGap_results (s : State) (now : Nat) : (s.applyGap now).results = s.results := rfl
@[simp] theorem State.applyGap_errors (s : State) (now : Nat) : (s.applyGap now).errors = s.errors := rfl
@[simp] theorem State.applyGap_rx (s : State) (now : Nat) : (s.applyGap now).rx = s.rx := rfl
@[simp] theorem State.applyGap_turns (s : State) (now : Nat) : (s.applyGap now).turns = s.turns := rfl
@[simp] theorem State.applyGap_cfg (s : State) (now : Nat) : (s.applyGap now).cfg = s.cfg := rfl

@[simp] theorem State.poll_state (s : State) (a : Nibble) (sub : Byte) : (s.poll a sub).state = .respondPending := rfl
@[simp] theorem State.poll_frameLen (s : State) (a : Nibble) (sub : Byte) : (s.poll a sub).frameLen = s.frameLen := rfl
@[simp] theorem State.poll_payloadIdx (s : State) (a : Nibble) (sub : Byte) : (s.poll a sub).payloadIdx = s.payloadIdx := rfl
@[simp] theorem State.poll_payload (s : State) (a : Nibble) (sub : Byte) : (s.poll a sub).payload = s.payload := rfl
@[simp] theorem State.poll_cksumRun (s : State) (a : Nibble) (sub : Byte) : (s.poll a sub).cksumRun = s.cksumRun := rfl
@[simp] theorem State.poll_cksumLo (s : State) (a : Nibble) (sub : Byte) : (s.poll a sub).cksumLo = s.cksumLo := rfl
@[simp] theorem State.poll_lastMs (s : State) (a : Nibble) (sub : Byte) : (s.poll a sub).lastMs = s.lastMs := rfl
@[simp] theorem State.poll_pendAddr (s : State) (a : Nibble) (sub : Byte) : (s.poll a sub).pendAddr = a := rfl
@[simp] theorem State.poll_pendSub (s : State) (a : Nibble) (sub : Byte) : (s.poll a sub).pendSub = sub := rfl
@[simp] theorem State.poll_ch (s : State) (a : Nibble) (sub : Byte) : (s.poll a sub).ch = s.ch := rfl
@[simp] theorem State.poll_sensorCount (s : State) (a : Nibble) (sub : Byte) : (s.poll a sub).sensorCount = s.sensorCount := rfl
@[simp] theorem State.poll_sensorType (s : State) (a : Nibble) (sub : Byte) : (s.poll a sub).sensorType = s.sensorType := rfl
@[simp] theorem State.poll_sensorValue (s : State) (a : Nibble) (sub : Byte) : (s.poll a sub).sensorValue = s.sensorValue := rfl
@[simp] theorem State.poll_cntChannel (s : State) (a : Nibble) (sub : Byte) : (s.poll a sub).cntChannel = s.cntChannel := rfl
@[simp] theorem State.poll_cntPoll (s : State) (a : Nibble) (sub : Byte) : (s.poll a sub).cntPoll = bump s.cfg s.cntPoll := rfl
@[simp] theorem State.poll_cntReply (s : State) (a : Nibble) (sub : Byte) : (s.poll a sub).cntReply = s.cntReply := rfl
@[simp] theorem State.poll_tx (s : State) (a : Nibble) (sub : Byte) : (s.poll a sub).tx = s.tx := rfl
@[simp] theorem State.poll_events (s : State) (a : Nibble) (sub : Byte) : (s.poll a sub).events = s.events := rfl
@[simp] theorem State.poll_results (s : State) (a : Nibble) (sub : Byte) : (s.poll a sub).results = s.results := rfl
@[simp] theorem State.poll_errors (s : State) (a : Nibble) (sub : Byte) : (s.poll a sub).errors = s.errors := rfl
@[simp] theorem State.poll_rx (s : State) (a : Nibble) (sub : Byte) : (s.poll a sub).rx = s.rx := rfl
@[simp] theorem State.poll_turns (s : State) (a : Nibble) (sub : Byte) : (s.poll a sub).turns = s.turns := rfl
@[simp] theorem State.poll_cfg (s : State) (a : Nibble) (sub : Byte) : (s.poll a sub).cfg = s.cfg := rfl

@[simp] theorem State.takeChannels_state (s : State) : (s.takeChannels).state = .idle := rfl
@[simp] theorem State.takeChannels_frameLen (s : State) : (s.takeChannels).frameLen = s.frameLen := rfl
@[simp] theorem State.takeChannels_payloadIdx (s : State) : (s.takeChannels).payloadIdx = s.payloadIdx := rfl
@[simp] theorem State.takeChannels_payload (s : State) : (s.takeChannels).payload = s.payload := rfl
@[simp] theorem State.takeChannels_cksumRun (s : State) : (s.takeChannels).cksumRun = s.cksumRun := rfl
@[simp] theorem State.takeChannels_cksumLo (s : State) : (s.takeChannels).cksumLo = s.cksumLo := rfl
@[simp] theorem State.takeChannels_lastMs (s : State) : (s.takeChannels).lastMs = s.lastMs := rfl
@[simp] theorem State.takeChannels_pendAddr (s : State) : (s.takeChannels).pendAddr = s.pendAddr := rfl
@[simp] theorem State.takeChannels_pendSub (s : State) : (s.takeChannels).pendSub = s.pendSub := rfl
@[simp] theorem State.takeChannels_ch (s : State) : (s.takeChannels).ch = channelWords s.payload := rfl
@[simp] theorem State.takeChannels_sensorCount (s : State) : (s.takeChannels).sensorCount = s.sensorCount := rfl
@[simp] theorem State.takeChannels_sensorType (s : State) : (s.takeChannels).sensorType = s.sensorType := rfl
@[simp] theorem State.takeChannels_sensorValue (s : State) : (s.takeChannels).sensorValue = s.sensorValue := rfl
@[simp] theorem State.takeChannels_cntChannel (s : State) : (s.takeChannels).cntChannel = bump s.cfg s.cntChannel := rfl
@[simp] theorem State.takeChannels_cntPoll (s : State) : (s.takeChannels).cntPoll = s.cntPoll := rfl
@[simp] theorem State.takeChannels_cntReply (s : State) : (s.takeChannels).cntReply = s.cntReply := rfl
@[simp] theorem State.takeChannels_tx (s : State) : (s.takeChannels).tx = s.tx := rfl
@[simp] theorem State.takeChannels_events (s : State) : (s.takeChannels).events = s.events ++ [.channelsUpdated] := rfl
@[simp] theorem State.takeChannels_results (s : State) : (s.takeChannels).results = s.results := rfl
@[simp] theorem State.takeChannels_errors (s : State) : (s.takeChannels).errors = s.errors := rfl
@[simp] theorem State.takeChannels_rx (s : State) : (s.takeChannels).rx = s.rx := rfl
@[simp] theorem State.takeChannels_turns (s : State) : (s.takeChannels).turns = s.turns := rfl
@[simp] theorem State.takeChannels_cfg (s : State) : (s.takeChannels).cfg = s.cfg := rfl

@[simp] theorem State.finishResponse_state (s : State) : (s.finishResponse).state = .idle := rfl
@[simp] theorem State.finishResponse_frameLen (s : State) : (s.finishResponse).frameLen = s.frameLen := rfl
@[simp] theorem State.finishResponse_payloadIdx (s : State) : (s.finishResponse).payloadIdx = s.payloadIdx := rfl
@[simp] theorem State.finishResponse_payload (s : State) : (s.finishResponse).payload = s.payload := rfl
@[simp] theorem State.finishResponse_cksumRun (s : State) : (s.finishResponse).cksumRun = s.cksumRun := rfl
@[simp] theorem State.finishResponse_cksumLo (s : State) : (s.finishResponse).cksumLo = s.cksumLo := rfl
@[simp] theorem State.finishResponse_lastMs (s : State) : (s.finishResponse).lastMs = s.lastMs := rfl
@[simp] theorem State.finishResponse_pendAddr (s : State) : (s.finishResponse).pendAddr = 0 := rfl
@[simp] theorem State.finishResponse_pendSub (s : State) : (s.finishResponse).pendSub = 0 := rfl
@[simp] theorem State.finishResponse_ch (s : State) : (s.finishResponse).ch = s.ch := rfl
@[simp] theorem State.finishResponse_sensorCount (s : State) : (s.finishResponse).sensorCount = s.sensorCount := rfl
@[simp] theorem State.finishResponse_sensorType (s : State) : (s.finishResponse).sensorType = s.sensorType := rfl
@[simp] theorem State.finishResponse_sensorValue (s : State) : (s.finishResponse).sensorValue = s.sensorValue := rfl
@[simp] theorem State.finishResponse_cntChannel (s : State) : (s.finishResponse).cntChannel = s.cntChannel := rfl
@[simp] theorem State.finishResponse_cntPoll (s : State) : (s.finishResponse).cntPoll = s.cntPoll := rfl
@[simp] theorem State.finishResponse_cntReply (s : State) : (s.finishResponse).cntReply = s.cntReply := rfl
@[simp] theorem State.finishResponse_tx (s : State) : (s.finishResponse).tx = s.tx := rfl
@[simp] theorem State.finishResponse_events (s : State) : (s.finishResponse).events = s.events := rfl
@[simp] theorem State.finishResponse_results (s : State) : (s.finishResponse).results = s.results := rfl
@[simp] theorem State.finishResponse_errors (s : State) : (s.finishResponse).errors = s.errors := rfl
@[simp] theorem State.finishResponse_rx (s : State) : (s.finishResponse).rx = s.rx := rfl
@[simp] theorem State.finishResponse_turns (s : State) : (s.finishResponse).turns = s.turns := rfl
@[simp] theorem State.finishResponse_cfg (s : State) : (s.finishResponse).cfg = s.cfg := rfl

@[simp] theorem State.sendReply_state (s : State) (body : List Byte) : (s.sendReply body).state = .idle := rfl
@[simp] theorem State.sendReply_frameLen (s : State) (body : List Byte) : (s.sendReply body).frameLen = s.frameLen := rfl
@[simp] theorem State.sendReply_payloadIdx (s : State) (body : List Byte) : (s.sendReply body).payloadIdx = s.payloadIdx := rfl
@[simp] theorem State.sendReply_payload (s : State) (body : List Byte) : (s.sendReply body).payload = s.payload := rfl
@[simp] theorem State.sendReply_cksumRun (s : State) (body : List Byte) : (s.sendReply body).cksumRun = s.cksumRun := rfl
@[simp] theorem State.sendReply_cksumLo (s : State) (body : List Byte) : (s.sendReply body).cksumLo = s.cksumLo := rfl
@[simp] theorem State.sendReply_lastMs (s : State) (body : List Byte) : (s.sendReply body).lastMs = s.lastMs := rfl
@[simp] theorem State.sendReply_pendAddr (s : State) (body : List Byte) : (s.sendReply body).pendAddr = 0 := rfl
@[simp] theorem State.sendReply_pendSub (s : State) (body : List Byte) : (s.sendReply body).pendSub = 0 := rfl
@[simp] theorem State.sendReply_ch (s : State) (body : List Byte) : (s.sendReply body).ch = s.ch := rfl
@[simp] theorem State.sendReply_sensorCount (s : State) (body : List Byte) : (s.sendReply body).sensorCount = s.sensorCount := rfl
@[simp] theorem State.sendReply_sensorType (s : State) (body : List Byte) : (s.sendReply body).sensorType = s.sensorType := rfl
@[simp] theorem State.sendReply_sensorValue (s : State) (body : List Byte) : (s.sendReply body).sensorValue = s.sensorValue := rfl
@[simp] theorem State.sendReply_cntChannel (s : State) (body : List Byte) : (s.sendReply body).cntChannel = s.cntChannel := rfl
@[simp] theorem State.sendReply_cntPoll (s : State) (body : List Byte) : (s.sendReply body).cntPoll = s.cntPoll := rfl
@[simp] theorem State.sendReply_cntReply (s : State) (body : List Byte) : (s.sendReply body).cntReply = bump s.cfg s.cntReply := rfl
@[simp] theorem State.sendReply_tx (s : State) (body : List Byte) : (s.sendReply body).tx = s.tx ++ withChecksum body := rfl
@[simp] theorem State.sendReply_events (s : State) (body : List Byte) : (s.sendReply body).events = s.events ++ [.replyReady (withChecksum body)] := rfl
@[simp] theorem State.sendReply_results (s : State) (body : List Byte) : (s.sendReply body).results = s.results := rfl
@[simp] theorem State.sendReply_errors (s : State) (body : List Byte) : (s.sendReply body).errors = s.errors := rfl
@[simp] theorem State.sendReply_rx (s : State) (body : List Byte) : (s.sendReply body).rx = s.rx := rfl
@[simp] theorem State.sendReply_turns (s : State) (body : List Byte) : (s.sendReply body).turns = s.turns := rfl
@[simp] theorem State.sendReply_cfg (s : State) (body : List Byte) : (s.sendReply body).cfg = s.cfg := rfl

@[simp] theorem State.answer_state (s : State) (r : HostResult) : (s.answer r).state = s.state := rfl
@[simp] theorem State.answer_frameLen (s : State) (r : HostResult) : (s.answer r).frameLen = s.frameLen := rfl
@[simp] theorem State.answer_payloadIdx (s : State) (r : HostResult) : (s.answer r).payloadIdx = s.payloadIdx := rfl
@[simp] theorem State.answer_payload (s : State) (r : HostResult) : (s.answer r).payload = s.payload := rfl
@[simp] theorem State.answer_cksumRun (s : State) (r : HostResult) : (s.answer r).cksumRun = s.cksumRun := rfl
@[simp] theorem State.answer_cksumLo (s : State) (r : HostResult) : (s.answer r).cksumLo = s.cksumLo := rfl
@[simp] theorem State.answer_lastMs (s : State) (r : HostResult) : (s.answer r).lastMs = s.lastMs := rfl
@[simp] theorem State.answer_pendAddr (s : State) (r : HostResult) : (s.answer r).pendAddr = s.pendAddr := rfl
@[simp] theorem State.answer_pendSub (s : State) (r : HostResult) : (s.answer r).pendSub = s.pendSub := rfl
@[simp] theorem State.answer_ch (s : State) (r : HostResult) : (s.answer r).ch = s.ch := rfl
@[simp] theorem State.answer_sensorCount (s : State) (r : HostResult) : (s.answer r).sensorCount = s.sensorCount := rfl
@[simp] theorem State.answer_sensorType (s : State) (r : HostResult) : (s.answer r).sensorType = s.sensorType := rfl
@[simp] theorem State.answer_sensorValue (s : State) (r : HostResult) : (s.answer r).sensorValue = s.sensorValue := rfl
@[simp] theorem State.answer_cntChannel (s : State) (r : HostResult) : (s.answer r).cntChannel = s.cntChannel := rfl
@[simp] theorem State.answer_cntPoll (s : State) (r : HostResult) : (s.answer r).cntPoll = s.cntPoll := rfl
@[simp] theorem State.answer_cntReply (s : State) (r : HostResult) : (s.answer r).cntReply = s.cntReply := rfl
@[simp] theorem State.answer_tx (s : State) (r : HostResult) : (s.answer r).tx = s.tx := rfl
@[simp] theorem State.answer_events (s : State) (r : HostResult) : (s.answer r).events = s.events := rfl
@[simp] theorem State.answer_results (s : State) (r : HostResult) : (s.answer r).results = s.results ++ [r] := rfl
@[simp] theorem State.answer_errors (s : State) (r : HostResult) : (s.answer r).errors = s.errors := rfl
@[simp] theorem State.answer_rx (s : State) (r : HostResult) : (s.answer r).rx = s.rx := rfl
@[simp] theorem State.answer_turns (s : State) (r : HostResult) : (s.answer r).turns = s.turns := rfl
@[simp] theorem State.answer_cfg (s : State) (r : HostResult) : (s.answer r).cfg = s.cfg := rfl

@[simp] theorem State.resetBlock_state (s : State) : (s.resetBlock).state = (State.powerOn s.cfg).state := rfl
@[simp] theorem State.resetBlock_frameLen (s : State) : (s.resetBlock).frameLen = (State.powerOn s.cfg).frameLen := rfl
@[simp] theorem State.resetBlock_payloadIdx (s : State) : (s.resetBlock).payloadIdx = (State.powerOn s.cfg).payloadIdx := rfl
@[simp] theorem State.resetBlock_payload (s : State) : (s.resetBlock).payload = (State.powerOn s.cfg).payload := rfl
@[simp] theorem State.resetBlock_cksumRun (s : State) : (s.resetBlock).cksumRun = (State.powerOn s.cfg).cksumRun := rfl
@[simp] theorem State.resetBlock_cksumLo (s : State) : (s.resetBlock).cksumLo = (State.powerOn s.cfg).cksumLo := rfl
@[simp] theorem State.resetBlock_lastMs (s : State) : (s.resetBlock).lastMs = (State.powerOn s.cfg).lastMs := rfl
@[simp] theorem State.resetBlock_pendAddr (s : State) : (s.resetBlock).pendAddr = (State.powerOn s.cfg).pendAddr := rfl
@[simp] theorem State.resetBlock_pendSub (s : State) : (s.resetBlock).pendSub = (State.powerOn s.cfg).pendSub := rfl
@[simp] theorem State.resetBlock_ch (s : State) : (s.resetBlock).ch = (State.powerOn s.cfg).ch := rfl
@[simp] theorem State.resetBlock_sensorCount (s : State) : (s.resetBlock).sensorCount = (State.powerOn s.cfg).sensorCount := rfl
@[simp] theorem State.resetBlock_sensorType (s : State) : (s.resetBlock).sensorType = (State.powerOn s.cfg).sensorType := rfl
@[simp] theorem State.resetBlock_sensorValue (s : State) : (s.resetBlock).sensorValue = (State.powerOn s.cfg).sensorValue := rfl
@[simp] theorem State.resetBlock_cntChannel (s : State) : (s.resetBlock).cntChannel = (State.powerOn s.cfg).cntChannel := rfl
@[simp] theorem State.resetBlock_cntPoll (s : State) : (s.resetBlock).cntPoll = (State.powerOn s.cfg).cntPoll := rfl
@[simp] theorem State.resetBlock_cntReply (s : State) : (s.resetBlock).cntReply = (State.powerOn s.cfg).cntReply := rfl
@[simp] theorem State.resetBlock_tx (s : State) : (s.resetBlock).tx = (State.powerOn s.cfg).tx := rfl
@[simp] theorem State.resetBlock_events (s : State) : (s.resetBlock).events = (State.powerOn s.cfg).events := rfl
@[simp] theorem State.resetBlock_results (s : State) : (s.resetBlock).results = (State.powerOn s.cfg).results := rfl
@[simp] theorem State.resetBlock_errors (s : State) : (s.resetBlock).errors = (State.powerOn s.cfg).errors := rfl
@[simp] theorem State.resetBlock_rx (s : State) : (s.resetBlock).rx = s.rx := rfl
@[simp] theorem State.resetBlock_turns (s : State) : (s.resetBlock).turns = s.turns := rfl
@[simp] theorem State.resetBlock_cfg (s : State) : (s.resetBlock).cfg = s.cfg := rfl

end Sys2Proof.Machine
end

