-- ==== Sys2Proof/Laws/Ops.lean ====
section
/-! SUPPORT. For each shared operation, one lemma that says everything it can do; proofs cite these and do not unfold the
operations. -/

namespace Sys2Proof.Machine

/-! ### Operands and conditions -/

theorem sensorSlot_of_range {a : Nat} (h1 : 1 ≤ a) (h2 : a ≤ Config.maxSensors) :
    sensorSlot a = some ⟨a - 1, by omega⟩ := by
  simp [sensorSlot, h1, h2]

theorem sensorSlot_eq_some {a : Nat} {k : Fin Config.maxSensors} (h : sensorSlot a = some k) : a = k.val + 1 := by
  unfold sensorSlot at h
  split at h
  · cases h; simp; omega
  · cases h

theorem registered_iff (s : State) (a : Nibble) :
    s.registered a = true ↔ 1 ≤ a.toNat ∧ a.toNat ≤ s.sensorCount.toNat := by simp [State.registered]

theorem elapsed_lt (c : Config) (now last : Nat) : elapsed c now last < 2 ^ c.timeW := by
  have hp : (0 : Int) < ((2 ^ c.timeW : Nat) : Int) := by exact_mod_cast Nat.two_pow_pos c.timeW
  have h1 := Int.emod_nonneg ((now : Int) - last) (ne_of_gt hp)
  have h2 := Int.emod_lt_of_pos ((now : Int) - last) hp
  unfold elapsed
  omega

/-- R61(c): the modular difference is the true elapsed time, as long as that is below 2^TIME_W, wrapped or not. -/
theorem elapsed_add (c : Config) (last d : Nat) (hd : d < 2 ^ c.timeW) :
    elapsed c ((last + d) % 2 ^ c.timeW) last = d := by
  unfold elapsed
  have e : (((last + d) % 2 ^ c.timeW : Nat) : Int) - (last : Int) ≡ (d : Int) [ZMOD ((2 ^ c.timeW : Nat) : Int)] := by
    have h1 : (((last + d) % 2 ^ c.timeW : Nat) : Int) ≡ ((last + d : Nat) : Int) [ZMOD ((2 ^ c.timeW : Nat) : Int)] := by
      push_cast; exact Int.mod_modEq _ _
    have h2 := h1.sub_right (last : Int)
    have h3 : ((last + d : Nat) : Int) - last = d := by push_cast; omega
    rwa [h3] at h2
  rw [e, Int.emod_eq_of_lt (by omega) (by exact_mod_cast hd)]
  simp

@[simp] theorem lengthByte_toNat (s : State) : s.lengthByte.toNat = s.frameLen.toNat + 3 := by
  have := s.frameLen.isLt
  simp [State.lengthByte, Config.overhead]; omega

/-- R67, R72: the comparison as numbers: the received checksum is `256 * b + cksum_lo`. -/
theorem checksumMatches_iff (s : State) (b : Byte) :
    s.checksumMatches b = true ↔ b.toNat * 256 + s.cksumLo.toNat = s.cksumRun.toNat := by
  rw [State.checksumMatches, beq_iff_eq, ← BitVec.toNat_inj, le16_toNat]

theorem isChannelFrame_iff (s : State) : s.isChannelFrame = true ↔ s.payload[0] = 0x40 := by
  simp [State.isChannelFrame, State.command]

/-- R75: the sensor poll test as numbers. -/
theorem isSensorPoll_iff (s : State) :
    s.isSensorPoll = true ↔
      s.payload[0] ≠ 0x40 ∧ (1 ≤ s.payload[0].toNat % 16 ∧ s.payload[0].toNat % 16 ≤ s.sensorCount.toNat) ∧
        s.frameLen.toNat = 1 := by
  simp only [State.isSensorPoll, State.isChannelFrame, State.command, State.pollLength, Bool.and_eq_true, registered_iff,
    addrOf_toNat, beq_iff_eq, Bool.not_eq_true', beq_eq_false_iff_ne, and_assoc]
  rw [← BitVec.toNat_inj]; rfl

theorem atFrame_iff (s : State) (len cmd : Byte) :
    s.atFrame len cmd = true ↔ s.state = .awaitChecksumHigh ∧ s.lengthByte = len ∧ s.payload[0] = cmd := by
  simp [State.atFrame, State.command, and_assoc]

/-- R75: everything a poll row that completes can have done. -/
theorem pollRow_next {sub : Byte} {a : Nibble} {s t : State} (h : pollRow sub a s = .next t) :
    s.atFrame Config.lenPoll (cmdByte sub a) = true ∧ s.isSensorPoll = true ∧ t = s.poll a sub := by
  unfold pollRow at h
  split at h
  next c => simp only [Bool.and_eq_true] at c; exact ⟨c.1, c.2, (Host.Outcome.next.inj h).symm⟩
  · cases h

/-- Storing the next byte of the payload extends the stored part by that byte (R65). -/
theorem payload_take_set (p : Vector Byte Config.maxPayload) (b : Byte) (n : Nat) (h : n < Config.maxPayload) :
    (p.set n b h).toList.take (n + 1) = p.toList.take n ++ [b] := by
  rw [Vector.toList_set, List.take_succ_eq_append_getElem (by simpa using h)]
  simp [List.take_set_of_le]

/-! ### Classification of a validated frame (R73) -/

/-- Everything DISPATCH can do: it always completes, in one of three ways. -/
theorem execDispatch_cases (s : State) (h : s.state = .awaitChecksumHigh) :
    (s.isChannelFrame = true ∧ execDispatch s = .next s.takeChannels) ∨
    (s.isSensorPoll = true ∧ execDispatch s = .next (s.poll (addrOf s.command) (subOf s.command))) ∨
    (s.isChannelFrame = false ∧ s.isSensorPoll = false ∧ execDispatch s = .next (s.raiseToIdle s.unrecognisedName)) := by
  by_cases hc : s.isChannelFrame = true
  · left
    have hc' : s.command = Config.cmdChannels := by simpa [State.isChannelFrame] using hc
    simp [execDispatch, h, hc, execChannels, State.atFrame, hc']
  · right
    by_cases hp : s.isSensorPoll = true
    · left
      refine ⟨hp, ?_⟩
      have hl : s.frameLen = 1 := by
        have := hp; simp only [State.isSensorPoll, State.pollLength, Bool.and_eq_true, beq_iff_eq] at this; exact this.2
      have hb : s.lengthByte = Config.lenPoll := by simp only [State.lengthByte, hl]; decide
      have key : ∀ sub : Byte, subOf s.command = sub →
          pollRow sub (addrOf s.command) s = .next (s.poll (addrOf s.command) (subOf s.command)) := by
        intro sub hs; subst hs
        simp [pollRow, State.atFrame, h, hb, hp]
      simp only [execDispatch, h, ne_eq, not_true_eq_false, if_false, hp, if_true, hc, Bool.false_eq_true]
      split
      · next e => exact key _ e
      · split
        · next e => exact key _ e
        · split
          · next e => exact key _ e
          · next e8 e9 eA =>
            rw [execPollOther, subInPlace_subNibble, if_neg (by rintro (e | e | e); exacts [e8 e, e9 e, eA e])]
            exact key _ rfl
    · right
      simp only [Bool.not_eq_true] at hc hp
      refine ⟨hc, hp, ?_⟩
      simp [execDispatch, h, hc, hp, execUnrecognised, State.atFrame]

/-- DISPATCH always completes. -/
theorem execDispatch_completes (s : State) (h : s.state = .awaitChecksumHigh) : ∃ t, execDispatch s = .next t := by
  rcases execDispatch_cases s h with ⟨_, e⟩ | ⟨_, e⟩ | ⟨_, _, e⟩ <;> exact ⟨_, e⟩

/-! ### The receiver (R60) -/

/-- Everything an RXBYTE that completes can have done: `g` is the state after the gap rule. -/
theorem execRxbyte_next {b : Byte} {now : Nat} {s t : State} (h : execRxbyte b now s = .next t) :
    s.state ≠ .respondPending ∧ ∃ g, g = s.applyGap now ∧
      ((g.state = .idle ∧ t = g) ∨
       (g.state = .awaitLength ∧ validLength b = true ∧
          t = { g with frameLen := BitVec.ofNat 5 (b.toNat - Config.overhead), cksumRun := Config.ckSeed - b.setWidth 16,
                       payloadIdx := 0, state := .collectPayload }) ∨
       (g.state = .awaitLength ∧ validLength b = false ∧ t = g.raiseToIdle .framingError) ∨
       (g.state = .collectPayload ∧ ∃ hi : g.payloadIdx.toNat < Config.maxPayload,
          t = { g with payload := g.payload.set g.payloadIdx.toNat b hi, cksumRun := g.cksumRun - b.setWidth 16,
                       payloadIdx := g.payloadIdx + 1,
                       state := if g.payloadIdx + 1 = g.frameLen then .awaitChecksumLow else .collectPayload }) ∨
       (g.state = .awaitChecksumLow ∧ t = { g with cksumLo := b, state := .awaitChecksumHigh }) ∨
       (g.state = .awaitChecksumHigh ∧ g.checksumMatches b = false ∧ t = g.raiseToIdle .checksumMismatch) ∨
       (g.state = .awaitChecksumHigh ∧ g.checksumMatches b = true ∧ execDispatch g = .next t)) := by
  unfold execRxbyte at h
  split at h
  · cases h
  next hp =>
  refine ⟨hp, s.applyGap now, rfl, ?_⟩
  generalize s.applyGap now = g at h
  unfold byteStep at h
  split at h <;> rename_i hg
  · simp only [execRxIdle, hg, if_true, Host.Outcome.next.injEq] at h
    left; refine ⟨hg, ?_⟩; rw [← h, ← hg]
  · simp only [execRxLen, hg, if_true] at h
    split at h
    next hv =>
      have hn : ¬ b.toNat - Config.overhead = 0 := by
        simp only [validLength, Config.overhead, Config.maxLen, Bool.and_eq_true, decide_eq_true_eq] at hv ⊢; omega
      rw [if_neg hn] at h
      right; left; exact ⟨hg, hv, (Host.Outcome.next.inj h).symm⟩
    next hv => right; right; left; exact ⟨hg, by simpa using hv, (Host.Outcome.next.inj h).symm⟩
  · simp only [execRxData, hg, if_true] at h
    split at h
    next hi => right; right; right; left; exact ⟨hg, hi, (Host.Outcome.next.inj h).symm⟩
    · cases h
  · simp only [execRxCkl, hg, if_true] at h
    right; right; right; right; left; exact ⟨hg, (Host.Outcome.next.inj h).symm⟩
  · simp only [execRxCkh, hg, if_true] at h
    split at h
    next hm => right; right; right; right; right; right; exact ⟨hg, hm, h⟩
    next hm =>
      right; right; right; right; right; left
      exact ⟨hg, by simpa using hm, (Host.Outcome.next.inj h).symm⟩
  · cases h

/-! ### The responder (R80) -/

/-- Everything an EMIT that completes can have done: a reply of four or six bytes, or a cancellation. -/
theorem execEmit_next {s t : State} (h : execEmit s = .next t) :
    s.state = .respondPending ∧
      ((∃ body, (body.length = 2 ∨ body.length = 4) ∧ t = s.sendReply body) ∨
       t = (s.label .unknownCommand).finishResponse) := by
  unfold execEmit at h
  split at h
  · cases h
  next hs =>
  have hs : s.state = .respondPending := by simpa using hs
  refine ⟨hs, ?_⟩
  split at h
  next e =>
    simp only [execReplyDiscover, State.pendingIs, hs, e, beq_self_eq_true, Bool.and_self, if_true] at h
    left; exact ⟨_, Or.inl rfl, (Host.Outcome.next.inj h).symm⟩
  split at h
  next e =>
    simp only [execReplyType, State.pendingIs, hs, e, beq_self_eq_true, Bool.and_self, if_true] at h
    split at h
    · left; exact ⟨_, Or.inr rfl, (Host.Outcome.next.inj h).symm⟩
    · cases h
  split at h
  next e =>
    simp only [execReplyValue, State.pendingIs, hs, e, beq_self_eq_true, Bool.and_self, if_true] at h
    split at h
    · left; exact ⟨_, Or.inr rfl, (Host.Outcome.next.inj h).symm⟩
    · cases h
  next e8 e9 eA =>
    rw [execReplyCancel, if_pos ⟨hs, e8, e9, eA⟩] at h
    right; exact (Host.Outcome.next.inj h).symm

/-! ### The host operations -/

/-- Everything a host call that completes can have done. -/
theorem execCall_next {c : HostCall} {s t : State} (h : exec c.instr s = .next t) :
    (∃ x, c = .addSensor x ∧ ∃ hn : s.sensorCount.toNat < Config.maxSensors,
      t = State.answer { s with sensorType := s.sensorType.set s.sensorCount.toNat x hn, sensorCount := s.sensorCount + 1 }
        (.address (s.sensorCount + 1))) ∨
    (∃ x, c = .addSensor x ∧ Config.maxSensors ≤ s.sensorCount.toNat ∧
      t = (s.label .registryFull).answer (.address (BitVec.ofNat 4 Config.maxSensors))) ∨
    (∃ a v k, c = .setMeas a v ∧ 1 ≤ a.toNat ∧ a.toNat ≤ s.sensorCount.toNat ∧ sensorSlot a.toNat = some k ∧
      t = { s with sensorValue := s.sensorValue.set k v }) ∨
    (∃ a v, c = .setMeas a v ∧ ¬ (1 ≤ a.toNat ∧ a.toNat ≤ s.sensorCount.toNat) ∧ t = s.label .addressOutOfRange) ∨
    (∃ i, c = .readChannel i ∧ t = s.answer (.channel (s.channelAt i))) ∨
    (c = .readCounters ∧ t = s.answer (.counters s.cntChannel s.cntPoll s.cntReply)) ∨
    (c = .reset ∧ t = s.resetBlock) := by
  cases c with
  | addSensor x =>
    simp only [HostCall.instr, exec, execAddSensor] at h
    split at h
    next hn => left; exact ⟨x, rfl, hn, (Host.Outcome.next.inj h).symm⟩
    next hn => right; left; exact ⟨x, rfl, by simpa using hn, (Host.Outcome.next.inj h).symm⟩
  | setMeas a v =>
    simp only [HostCall.instr, exec, execSetMeas] at h
    right; right
    split at h
    next hr =>
      split at h
      next k hk => left; exact ⟨a, v, k, rfl, hr.1, hr.2, hk, (Host.Outcome.next.inj h).symm⟩
      · cases h
    next hr => right; left; exact ⟨a, v, rfl, hr, (Host.Outcome.next.inj h).symm⟩
  | readChannel i =>
    right; right; right; right; left; exact ⟨i, rfl, (Host.Outcome.next.inj h).symm⟩
  | readCounters =>
    right; right; right; right; right; left; exact ⟨rfl, (Host.Outcome.next.inj h).symm⟩
  | reset =>
    right; right; right; right; right; right; exact ⟨rfl, (Host.Outcome.next.inj h).symm⟩

/-! ### The step -/

/-- Everything a step that completes can have run. -/
theorem step_next {s t : State} (h : step s = .next t) :
    (s.turns = [] ∧ t = s) ∨
    (∃ ts, s.turns = .driver :: ts ∧ s.state = .respondPending ∧ execEmit { s with turns := ts } = .next t) ∨
    (∃ ts, s.turns = .driver :: ts ∧ s.state ≠ .respondPending ∧ s.rx = [] ∧ t = { s with turns := ts }) ∨
    (∃ ts r rs, s.turns = .driver :: ts ∧ s.state ≠ .respondPending ∧ s.rx = r :: rs ∧
      execRxbyte r.byte r.nowMs { s with turns := ts, rx := rs } = .next t) ∨
    (∃ c ts, s.turns = .host c :: ts ∧ exec c.instr { s with turns := ts } = .next t) := by
  unfold step fetch at h
  rcases ht : s.turns with _ | ⟨⟨⟩ | c, ts⟩
  · simp only [ht] at h
    left; exact ⟨rfl, (Host.Outcome.next.inj h).symm⟩
  · simp only [ht] at h
    right
    by_cases hp : s.state = .respondPending
    · simp only [hp, if_true] at h
      left; refine ⟨ts, rfl, hp, ?_⟩; rw [hp]; exact h
    · simp only [hp, if_false] at h
      right
      rcases hr : s.rx with _ | ⟨r, rs⟩
      · simp only [hr] at h
        left; exact ⟨ts, rfl, hp, rfl, (Host.Outcome.next.inj h).symm⟩
      · simp only [hr] at h
        right; left; exact ⟨ts, r, rs, rfl, hp, rfl, h⟩
  · simp only [ht] at h
    right; right; right; right; exact ⟨c, ts, rfl, h⟩

end Sys2Proof.Machine
end

