-- ==== Sys2Proof/Laws/PerInstr.lean ====
section
/-! SUPPORT. HeaderRoundTrip, a fact about each operation as syntax: the header the encoder gives a well-formed operation
starts a frame (R46) and is read back as that operation, on the way in (R54) and on the way out (R51 to R53). One lemma for
each constructor of Instr. -/

namespace Sys2Proof.Laws

/-- The header of `i`, where it has one, has a valid length byte and decodes to `i`. -/
def HeaderRoundTrip.Statement (i : Instr) : Prop :=
  (∀ (reg : Nibble → Bool) (h : Word), i.wfFor reg = true → encodeHeader i = some (.rx, h) →
    lengthInRange (hi8 h) = true ∧ decodeRx reg h = i) ∧
  (∀ h : Word, encodeHeader i = some (.tx, h) → lengthInRange (hi8 h) = true ∧ decodeTx h = some i)

/-- An operation with no encoding on any wire (R96). -/
theorem headerRoundTrip_of_none {i : Instr} (e : encodeHeader i = none) : HeaderRoundTrip.Statement i :=
  ⟨fun reg h _ he => (by rw [e] at he; cases he), fun h he => (by rw [e] at he; cases he)⟩

/-- A received frame needs no word on the way out. -/
theorem headerRoundTrip_of_rx {i : Instr} {w : Word} (e : encodeHeader i = some (.rx, w))
    (hw : ∀ reg, i.wfFor reg = true → lengthInRange (hi8 w) = true ∧ decodeRx reg w = i) :
    HeaderRoundTrip.Statement i := by
  refine ⟨fun reg h hr he => ?_, fun h he => ?_⟩
  · rw [e] at he; cases he; exact hw reg hr
  · rw [e] at he; cases he

/-- A transmitted frame needs no word on the way in. -/
theorem headerRoundTrip_of_tx {i : Instr} {w : Word} (e : encodeHeader i = some (.tx, w))
    (hw : lengthInRange (hi8 w) = true ∧ decodeTx w = some i) : HeaderRoundTrip.Statement i := by
  refine ⟨fun reg h hr he => ?_, fun h he => ?_⟩
  · rw [e] at he; cases he
  · rw [e] at he; cases he; exact hw

/-- R54: how a length-4 header with a registered address is read, by its sub-command. -/
theorem decodeRx_poll (reg : Nibble → Bool) (sub a : Nibble) (hr : reg a = true)
    (hc : cmdByte (subInPlace sub) a ≠ Config.cmdChannels) :
    decodeRx reg (headerOf Config.lenPoll (cmdByte (subInPlace sub) a)) =
      if sub = 0x8 then .pollDiscover a
      else if sub = 0x9 then .pollType a
      else if sub = 0xA then .pollValue a
      else .pollOther sub a := by
  simp only [decodeRx, lo8_headerOf, hi8_headerOf, if_neg hc, addrOf_cmdByte, subOf_cmdByte, subNibble_cmdByte, hr,
    subDiscover_inPlace, subType_inPlace, subValue_inPlace, subInPlace_inj]
  simp

theorem lengthInRange_poll (c : Byte) : lengthInRange (hi8 (headerOf Config.lenPoll c)) = true := by
  rw [hi8_headerOf]; decide

theorem HeaderRoundTrip.rxbyte (b : Byte) (now : Nat) : HeaderRoundTrip.Statement (.rxbyte b now) :=
  headerRoundTrip_of_none rfl
theorem HeaderRoundTrip.rxGap (now : Nat) : HeaderRoundTrip.Statement (.rxGap now) := headerRoundTrip_of_none rfl
theorem HeaderRoundTrip.rxIdle (b : Byte) : HeaderRoundTrip.Statement (.rxIdle b) := headerRoundTrip_of_none rfl
theorem HeaderRoundTrip.rxLen (b : Byte) : HeaderRoundTrip.Statement (.rxLen b) := headerRoundTrip_of_none rfl
theorem HeaderRoundTrip.rxData (b : Byte) : HeaderRoundTrip.Statement (.rxData b) := headerRoundTrip_of_none rfl
theorem HeaderRoundTrip.rxCkl (b : Byte) : HeaderRoundTrip.Statement (.rxCkl b) := headerRoundTrip_of_none rfl
theorem HeaderRoundTrip.rxCkh (b : Byte) : HeaderRoundTrip.Statement (.rxCkh b) := headerRoundTrip_of_none rfl
theorem HeaderRoundTrip.dispatch : HeaderRoundTrip.Statement .dispatch := headerRoundTrip_of_none rfl

theorem HeaderRoundTrip.channels (len : Byte) : HeaderRoundTrip.Statement (.channels len) :=
  headerRoundTrip_of_rx rfl fun reg hw => ⟨by simpa [Instr.wfFor, Instr.wf] using hw, by simp [decodeRx]⟩

theorem HeaderRoundTrip.pollDiscover (a : Nibble) : HeaderRoundTrip.Statement (.pollDiscover a) :=
  headerRoundTrip_of_rx rfl fun reg hw => by
    have hr : reg a = true := by simpa [Instr.wfFor, Instr.wf] using hw
    have hc : ∀ a : Nibble, cmdByte (subInPlace 0x8) a ≠ Config.cmdChannels := by decide
    refine ⟨lengthInRange_poll _, ?_⟩
    rw [subDiscover_inPlace, decodeRx_poll reg 0x8 a hr (hc a)]; rfl

theorem HeaderRoundTrip.pollType (a : Nibble) : HeaderRoundTrip.Statement (.pollType a) :=
  headerRoundTrip_of_rx rfl fun reg hw => by
    have hr : reg a = true := by simpa [Instr.wfFor, Instr.wf] using hw
    have hc : ∀ a : Nibble, cmdByte (subInPlace 0x9) a ≠ Config.cmdChannels := by decide
    refine ⟨lengthInRange_poll _, ?_⟩
    rw [subType_inPlace, decodeRx_poll reg 0x9 a hr (hc a)]; rfl

theorem HeaderRoundTrip.pollValue (a : Nibble) : HeaderRoundTrip.Statement (.pollValue a) :=
  headerRoundTrip_of_rx rfl fun reg hw => by
    have hr : reg a = true := by simpa [Instr.wfFor, Instr.wf] using hw
    have hc : ∀ a : Nibble, cmdByte (subInPlace 0xA) a ≠ Config.cmdChannels := by decide
    refine ⟨lengthInRange_poll _, ?_⟩
    rw [subValue_inPlace, decodeRx_poll reg 0xA a hr (hc a)]; rfl

theorem HeaderRoundTrip.pollOther (sub a : Nibble) : HeaderRoundTrip.Statement (.pollOther sub a) :=
  headerRoundTrip_of_rx rfl fun reg hw => by
    simp only [Instr.wfFor, Instr.wf, Bool.and_eq_true, bne_iff_ne] at hw
    obtain ⟨⟨⟨⟨h8, h9⟩, hA⟩, h4⟩, hr⟩ := hw
    have hc : ∀ sub a : Nibble, sub ++ a ≠ Config.cmdChannels → cmdByte (subInPlace sub) a ≠ Config.cmdChannels := by decide
    have hs : ∀ sub : Nibble, sub ++ (0 : Nibble) ≠ Config.subDiscover → sub ++ (0 : Nibble) ≠ Config.subType →
        sub ++ (0 : Nibble) ≠ Config.subValue → sub ≠ 0x8 ∧ sub ≠ 0x9 ∧ sub ≠ 0xA := by decide
    obtain ⟨n8, n9, nA⟩ := hs sub h8 h9 hA
    refine ⟨lengthInRange_poll _, ?_⟩
    rw [decodeRx_poll reg sub a hr (hc sub a h4), if_neg n8, if_neg n9, if_neg nA]

theorem HeaderRoundTrip.unrecognised (len cmd : Byte) : HeaderRoundTrip.Statement (.unrecognised len cmd) :=
  headerRoundTrip_of_rx rfl fun reg hw => by
    simp only [Instr.wfFor, Instr.wf, Bool.and_eq_true, bne_iff_ne, Bool.or_eq_true, Bool.not_eq_true'] at hw
    obtain ⟨⟨hl, hc⟩, hr⟩ := hw
    refine ⟨by simpa using hl, ?_⟩
    simp only [decodeRx, lo8_headerOf, hi8_headerOf, if_neg hc]
    rw [if_neg]
    simp only [Bool.and_eq_true, beq_iff_eq, not_and]
    intro h1 h2
    rcases hr with hr | hr
    · exact hr h2
    · rw [show addrOf cmd = cmd.extractLsb' 0 4 from rfl, hr] at h1; cases h1

theorem HeaderRoundTrip.emit : HeaderRoundTrip.Statement .emit := headerRoundTrip_of_none rfl

theorem HeaderRoundTrip.replyDiscover (a : Nibble) : HeaderRoundTrip.Statement (.replyDiscover a) :=
  headerRoundTrip_of_tx rfl (by revert a; decide)
theorem HeaderRoundTrip.replyType (a : Nibble) : HeaderRoundTrip.Statement (.replyType a) :=
  headerRoundTrip_of_tx rfl (by revert a; decide)
theorem HeaderRoundTrip.replyValue (a : Nibble) : HeaderRoundTrip.Statement (.replyValue a) :=
  headerRoundTrip_of_tx rfl (by revert a; decide)
theorem HeaderRoundTrip.replyCancel : HeaderRoundTrip.Statement .replyCancel := headerRoundTrip_of_none rfl

theorem HeaderRoundTrip.addSensor (t : Byte) : HeaderRoundTrip.Statement (.addSensor t) := headerRoundTrip_of_none rfl
theorem HeaderRoundTrip.setMeas (a : Byte) (v : Word) : HeaderRoundTrip.Statement (.setMeas a v) :=
  headerRoundTrip_of_none rfl
theorem HeaderRoundTrip.readChannel (i : Nat) : HeaderRoundTrip.Statement (.readChannel i) := headerRoundTrip_of_none rfl
theorem HeaderRoundTrip.readCounters : HeaderRoundTrip.Statement .readCounters := headerRoundTrip_of_none rfl
theorem HeaderRoundTrip.reset : HeaderRoundTrip.Statement .reset := headerRoundTrip_of_none rfl

end Sys2Proof.Laws
end

