-- ==== Sys2Proof/Laws/Runs.lean ====
section
/-! SUPPORT. What the gap rule does, in the terms of Safety.lean; how a run of bytes splits. -/

namespace Sys2Proof.Machine

/-- The state after the gap rule is the one the byte is processed in (R60). -/
theorem applyGap_state_processedIn (s : State) (now : Nat) : (s.applyGap now).state = s.processedIn now := by
  simp [State.applyGap, State.gapBefore, State.processedIn]

/-- Without a gap RX.GAP writes the time alone. -/
theorem applyGap_of_noGap {s : State} {now : Nat} (h : ¬ gapAt s.cfg now s.lastMs) :
    s.applyGap now = { s with lastMs := now % 2 ^ s.cfg.timeW } := by
  have hg : s.gapBefore now = false := by simpa [State.gapBefore, gapAt] using h
  simp [State.applyGap, hg]

/-- With a gap RX.GAP restarts the receiver. -/
theorem applyGap_of_gap {s : State} {now : Nat} (h : gapAt s.cfg now s.lastMs) :
    s.applyGap now = { s with state := .awaitLength, lastMs := now % 2 ^ s.cfg.timeW } := by
  have hg : s.gapBefore now = true := by simpa [State.gapBefore, gapAt] using h
  simp [State.applyGap, hg]

/-- A byte processed in any state but AwaitLength had no gap before it. -/
theorem noGap_of_processedIn {s : State} {now : Nat} (h : s.processedIn now ≠ .awaitLength) :
    ¬ gapAt s.cfg now s.lastMs ∧ s.processedIn now = s.state := by
  by_cases c : Config.gapMs ≤ elapsed s.cfg now s.lastMs
  · exact absurd (if_pos c) h
  · exact ⟨c, if_neg c⟩

theorem noGaps_append (c : Config) (as bs : List RxByte) (last : Nat) :
    noGaps c last (as ++ bs) ↔ noGaps c last as ∧ noGaps c (lastTime c last as) bs := by
  induction as generalizing last with
  | nil => simp [noGaps, lastTime]
  | cons a as ih => simp [noGaps, lastTime, ih, and_assoc]

theorem lastTime_append (c : Config) (as bs : List RxByte) (last : Nat) :
    lastTime c last (as ++ bs) = lastTime c (lastTime c last as) bs := by
  induction as generalizing last with
  | nil => rfl
  | cons a as ih => simp [lastTime, ih]

end Sys2Proof.Machine
end

