-- ==== Sys2Proof/Tests/Slice0.lean ====
section
/-! SUPPORT. The model's own tests: the well-formedness smoke tests, words and frames written out from the spec, one step at
a time on small states with the results of spec/95_test_vectors.md, and for every statement with hypotheses a witness that
meets them. Numbers such as V40-1 and PR1 name the vectors of that file. -/

namespace Sys2Proof.Tests

open Sys2Proof Sys2Proof.Machine

/-! ### Helpers -/

/-- `r` is a next state with the property `p`. -/
def nextIs (r : Result) (p : State → Bool) : Bool :=
  match r with
  | .next t => p t
  | _ => false

/-- `r` is the fault `f`. -/
def faultIs (r : Result) (f : Fault) : Bool :=
  match r with
  | .fault g => f == g
  | _ => false

/-- `r` is the refusal `f`. -/
def refusalIs (r : Result) (f : Refusal) : Bool :=
  match r with
  | .refused g => f == g
  | _ => false

/-- What a decoded frame is, `none` where it is no frame. -/
def read (r : Except DecodeError (Instr × List Byte × List Byte)) : Option (Instr × List Byte × List Byte) := r.toOption

/-- After reset, with `n` sensors registered; the first has type 0x01 and measurement 0x1234, the last 0x09 and 0xFF00. -/
def withSensors (n : Nibble) : State :=
  { State.reset with sensorCount := n, sensorType := (State.reset.sensorType.set 0 0x01).set 9 0x09,
                     sensorValue := (State.reset.sensorValue.set 0 0x1234).set 9 0xFF00 }

/-- The receiver in the state `st` of a frame with the payload count `n`, `k` bytes stored, `n` sensors registered. -/
def inState (st : FsmState) (n k : BitVec 5) : State :=
  { withSensors 1 with state := st, frameLen := n, payloadIdx := k, cksumRun := 0xFFF0, cksumLo := 0xF0, lastMs := 100 }

/-- The receiver at the last byte of a frame whose command is `cmd`, of payload count `n`, with `sensors` registered; the
checksum registers are those of a frame with data bytes of 0. -/
def atEnd (sensors : Nibble) (n : BitVec 5) (cmd : Byte) : State :=
  { withSensors sensors with
    state := .awaitChecksumHigh, frameLen := n, payloadIdx := n, payload := State.reset.payload.set 0 cmd,
    cksumRun := 0xFFFF - (n.setWidth 16 + 3 + cmd.setWidth 16),
    cksumLo := lo8 (0xFFFF - (n.setWidth 16 + 3 + cmd.setWidth 16)) }

/-- A response pending. -/
def pendingWith (sub : Byte) (a : Nibble) : State :=
  { withSensors 10 with state := .respondPending, pendSub := sub, pendAddr := a }

/-- A driver invocation due, with these bytes waiting. -/
def driven (s : State) (rx : List RxByte) : State := { s with turns := [.driver], rx := rx }

/-- A host call due. -/
def called (s : State) (c : HostCall) : State := { s with turns := [.host c] }

/-! ### Well-formedness: an ill-formed term for each check -/

/-- R46: lengths 0x03 and 0x21 start no frame. -/
theorem test_wf_channels_length :
    (Instr.channels 0x03).wf = false ∧ (Instr.channels 0x21).wf = false ∧ (Instr.channels 0x04).wf = true ∧
      (Instr.channels 0x20).wf = true := by decide

/-- R54: POLL.OTHER is not one of the three known sub-commands, nor the channel command. -/
theorem test_wf_pollOther :
    (Instr.pollOther 0x8 1).wf = false ∧ (Instr.pollOther 0x9 1).wf = false ∧ (Instr.pollOther 0xA 1).wf = false ∧
      (Instr.pollOther 0x4 0).wf = false ∧ (Instr.pollOther 0x4 1).wf = true := by decide

/-- R46, R54: UNRECOGNISED has a valid length and is not the channel command. -/
theorem test_wf_unrecognised :
    (Instr.unrecognised 0x03 0x81).wf = false ∧ (Instr.unrecognised 0x21 0x81).wf = false ∧
      (Instr.unrecognised 0x05 0x40).wf = false ∧ (Instr.unrecognised 0x05 0x81).wf = true := by decide

/-- R54, R79: a poll of an unregistered address is ill-formed, and so is UNRECOGNISED at a registered one. -/
theorem test_wfFor_registry :
    (Instr.pollDiscover 2).wfFor (withSensors 1).registered = false ∧
      (Instr.pollOther 0x7 0).wfFor (withSensors 1).registered = false ∧
      (Instr.unrecognised 0x04 0x81).wfFor (withSensors 1).registered = false ∧
      (Instr.unrecognised 0x04 0x82).wfFor (withSensors 1).registered = true ∧
      (Instr.unrecognised 0x05 0x81).wfFor (withSensors 1).registered = true := by decide

/-! ### Decoding: words written out from the spec's encodings, first byte on the wire in the high half -/

theorem test_word_channels : decodeTableWord 16 0b0010000001000000 = some (.channels 0x20) := by decide
theorem test_word_pollDiscover : decodeTableWord 16 0b0000010010000001 = some (.pollDiscover 1) := by decide
theorem test_word_pollType : decodeTableWord 16 0b0000010010011010 = some (.pollType 10) := by decide
theorem test_word_pollValue : decodeTableWord 16 0b0000010010100010 = some (.pollValue 2) := by decide
theorem test_word_pollOther : decodeTableWord 16 0b0000010011110001 = some (.pollOther 0xF 1) := by decide
theorem test_word_unrecognised : decodeTableWord 16 0b0000010110000001 = some (.unrecognised 0x05 0x81) := by decide
theorem test_word_replyType : decodeTableWord 16 0b0000011010010010 = some (.replyType 2) := by decide
theorem test_word_replyValue : decodeTableWord 16 0b0000011010100001 = some (.replyValue 1) := by decide

/-- A Discover reply has the bits of its poll (R51): the same word is REPLY.DISCOVER on the way out. -/
theorem test_word_replyDiscover : decodeTx 0b0000010010001010 = some (.replyDiscover 10) := by decide

/-- R96: 8 bits are a received byte, whatever they are; other widths are none. -/
theorem test_word_rxbyte :
    decodeTableWord 8 0b10000001 = some (.rxbyte 0x81 0) ∧ decodeTableWord 24 0 = none := by decide

/-- R60: the byte-steps, by the state alone. -/
theorem test_byteStep_rows :
    decodeByteStep .idle 0x04 = some (.rxIdle 0x04) ∧ decodeByteStep .awaitLength 0x04 = some (.rxLen 0x04) ∧
      decodeByteStep .collectPayload 0x04 = some (.rxData 0x04) ∧
      decodeByteStep .awaitChecksumLow 0x04 = some (.rxCkl 0x04) ∧
      decodeByteStep .awaitChecksumHigh 0x04 = some (.rxCkh 0x04) ∧ decodeByteStep .respondPending 0x04 = none := by
  decide

/-- R81: the outcomes of EMIT. -/
theorem test_emit_rows :
    decodeEmit 0x80 3 = .replyDiscover 3 ∧ decodeEmit 0x90 3 = .replyType 3 ∧ decodeEmit 0xA0 3 = .replyValue 3 ∧
      decodeEmit 0xB0 3 = .replyCancel := by decide

/-- R96: the host operations, by name. -/
theorem test_host_rows :
    HostCall.instr (.addSensor 0x01) = .addSensor 0x01 ∧ HostCall.instr (.setMeas 1 0x1234) = .setMeas 1 0x1234 ∧
      HostCall.instr (.readChannel 5) = .readChannel 5 ∧ HostCall.instr .readCounters = .readCounters ∧
      HostCall.instr .reset = .reset := by decide

/-- V42-1: a Discover poll, a Type poll and a Value poll, byte by byte. -/
theorem test_frame_polls :
    read (decodeRxFrame anyAddress [0x04, 0x8A, 0x71, 0xFF]) = some (.pollDiscover 10, [], []) ∧
      read (decodeRxFrame anyAddress [0x04, 0x93, 0x68, 0xFF]) = some (.pollType 3, [], []) ∧
      read (decodeRxFrame anyAddress [0x04, 0xAA, 0x51, 0xFF]) = some (.pollValue 10, [], []) := by decide

/-- V42-4 and V41-2: a poll with another sub-command, and the length guard. -/
theorem test_frame_others :
    read (decodeRxFrame anyAddress [0x04, 0x71, 0x8A, 0xFF]) = some (.pollOther 7 1, [], []) ∧
      read (decodeRxFrame anyAddress [0x05, 0x81, 0x00, 0x79, 0xFF]) = some (.unrecognised 5 0x81, [0x00], []) ∧
      read (decodeRxFrame (withSensors 1).registered [0x04, 0x82, 0x79, 0xFF]) = some (.unrecognised 4 0x82, [], []) := by
  decide

/-- V42-2, V42-3: replies. -/
theorem test_frame_replies :
    read (decodeTxFrame [0x06, 0x9A, 0xFF, 0x02, 0x5E, 0xFE]) = some (.replyType 10, [0xFF, 0x02], []) ∧
      read (decodeTxFrame [0x06, 0xAA, 0x00, 0xFF, 0x50, 0xFE]) = some (.replyValue 10, [0x00, 0xFF], []) := by decide

/-- V42-5: checksums whose high byte is below 0xFF. -/
theorem test_frame_checksum :
    frame [0xFB] = [0x04, 0xFB, 0x00, 0xFF] ∧ frame [0xFC] = [0x04, 0xFC, 0xFF, 0xFE] ∧
      frame [0xFF] = [0x04, 0xFF, 0xFC, 0xFE] := by decide

/-- V41-3: a short channel frame. -/
theorem test_encode_channels :
    encode (.channels 0x08) [0xE8, 0x03, 0xE8, 0x03] = some [0x08, 0x40, 0xE8, 0x03, 0xE8, 0x03, 0xE1, 0xFD] := by decide

/-- R55, R67: bytes that are no frame are refused by name. -/
theorem test_frame_refused :
    parseFrame [0x03, 0x81, 0x7A] = .error (.badLength 0x03) ∧ parseFrame [0x21] = .error (.badLength 0x21) ∧
      parseFrame [0x04, 0x81, 0x7B, 0xFF] = .error .badChecksum ∧ parseFrame [0x04, 0x81, 0x7A] = .error .truncated :=
  ⟨rfl, rfl, rfl, rfl⟩

/-- The words of the table, placed where the next step finds them, run: the poll is pending, the frames are counted or
dropped, the reply is sent. -/
theorem test_placed_words :
    nextIs (step (State.reset.withFetchWord 16 0x0481)) (fun t => t.state == .respondPending && t.pendSub == 0x80) ∧
      nextIs (step (State.reset.withFetchWord 16 0x0040)) (fun t => t.cntChannel == 1) ∧
      nextIs (step (State.reset.withFetchWord 16 0x0581)) (fun t => t.errors == [.unknownCommand]) ∧
      nextIs (step (State.reset.withFetchWord 16 0x0691)) (fun t => t.tx == [0x06, 0x91, 0x00, 0x02, 0x66, 0xFF]) ∧
      nextIs (step (State.reset.withFetchWord 8 0x81)) (fun t => t == State.reset) := by decide

/-- R11, D7: the state codes. -/
theorem test_fsmCode : fsmCode .idle = 0 ∧ fsmCode .collectPayload = 2 ∧ fsmCode .respondPending = 5 := by decide

/-! ### One step at a time -/

/-- V40-1: elapsed 2 is no gap, elapsed 3 is. -/
theorem test_rxGap :
    nextIs (exec (.rxGap 102) (inState .collectPayload 5 1)) (fun t => t.state == .collectPayload && t.lastMs == 102) ∧
      nextIs (exec (.rxGap 103) (inState .collectPayload 5 1)) (fun t => t.state == .awaitLength && t.lastMs == 103) := by
  decide

/-- V40-1, across the wrap of the clock: elapsed 3, then elapsed 2. -/
theorem test_rxGap_wrap :
    nextIs (exec (.rxGap 1) { inState .collectPayload 5 1 with lastMs := 4294967294 }) (fun t => t.state == .awaitLength) ∧
      nextIs (exec (.rxGap 0) { inState .collectPayload 5 1 with lastMs := 4294967294 })
        (fun t => t.state == .collectPayload) := by decide

/-- V40-1: the same byte as payload and as length byte. -/
theorem test_rxbyte :
    nextIs (exec (.rxbyte 0x20 102) (inState .collectPayload 5 1))
        (fun t => t.payload[1] == 0x20 && t.payloadIdx == 2 && t.cksumRun == 0xFFD0 && t.lastMs == 102) ∧
      nextIs (exec (.rxbyte 0x20 103) (inState .collectPayload 5 1))
        (fun t => t.frameLen == 29 && t.payloadIdx == 0 && t.cksumRun == 0xFFDF && t.state == .collectPayload) := by
  decide

/-- S6: no byte is taken while a response is pending. -/
theorem test_rxbyte_stuck : faultIs (exec (.rxbyte 0x04 200) (pendingWith 0x80 1)) .stuckWhilePending := by decide

/-- V70-1: a byte in Idle is dropped. -/
theorem test_rxIdle :
    nextIs (exec (.rxIdle 0x04) State.reset) (fun t => t == State.reset) ∧
      refusalIs (exec (.rxIdle 0x04) (inState .collectPayload 5 1)) .notApplicable := by decide

/-- V40-2: the boundary lengths. -/
theorem test_rxLen :
    nextIs (exec (.rxLen 0x04) (inState .awaitLength 5 1)) (fun t => t.frameLen == 1 && t.cksumRun == 0xFFFB) ∧
      nextIs (exec (.rxLen 0x20) (inState .awaitLength 5 1)) (fun t => t.frameLen == 29 && t.cksumRun == 0xFFDF) := by
  decide

/-- V40-2: a FramingError keeps the frame registers. -/
theorem test_rxLen_invalid :
    nextIs (exec (.rxLen 0x03) (inState .awaitLength 5 1)) (fun t => t.state == .idle && t.frameLen == 5 && t.payloadIdx == 1) ∧
      nextIs (exec (.rxLen 0x21) (inState .awaitLength 5 1)) (fun t => t.state == .idle && t.cksumRun == 0xFFF0) := by
  decide

/-- V40-4, row 81: the last payload byte. -/
theorem test_rxData :
    nextIs (exec (.rxData 0x81) { inState .collectPayload 1 0 with cksumRun := 0xFFFB })
      (fun t => t.state == .awaitChecksumLow && t.payload[0] == 0x81 && t.payloadIdx == 1 && t.cksumRun == 0xFF7A) := by
  decide

/-- R14, R31: there is no element 29 (entry 10). -/
theorem test_rxData_outside : faultIs (exec (.rxData 0x81) (inState .collectPayload 31 29)) .payloadIndexOutOfRange := by
  decide

/-- V40-4, row 7A. -/
theorem test_rxCkl :
    nextIs (exec (.rxCkl 0x7A) (inState .awaitChecksumLow 1 1))
      (fun t => t.state == .awaitChecksumHigh && t.cksumLo == 0x7A && t.cksumRun == 0xFFF0) := by decide

/-- V40-4, row FF, and V40-5: the wrong high byte. -/
theorem test_rxCkh :
    nextIs (exec (.rxCkh 0xFF) (atEnd 1 1 0x81)) (fun t => t.state == .respondPending && t.pendAddr == 1 && t.pendSub == 0x80) ∧
      nextIs (exec (.rxCkh 0xFE) (atEnd 1 1 0x81)) (fun t => t.state == .idle && t.cntPoll == 0) := by decide

/-- V41-2: address 2 with one sensor registered is out of range; address 1 is a poll. -/
theorem test_dispatch :
    nextIs (exec .dispatch (atEnd 1 1 0x82)) (fun t => t.state == .idle && t.errors == [.addressOutOfRange]) ∧
      nextIs (exec .dispatch (atEnd 1 1 0x81)) (fun t => t.state == .respondPending && t.cntPoll == 1) := by decide

/-- V41-3 with PAYLOAD_INIT all 0xAA: the channels beyond a short frame come from the buffer. -/
theorem test_channels :
    nextIs (exec (.channels 0x08) { atEnd 0 5 0x40 with payload :=
        ((((Vector.replicate 29 0xAA).set 0 0x40).set 1 0xE8).set 2 0x03).set 3 0xDB })
      (fun t => t.ch[0] == 0x03E8 && t.ch[1] == 0xAADB && t.ch[13] == 0xAAAA && t.cntChannel == 1) := by decide

/-- V41-2, row 1. -/
theorem test_pollDiscover :
    nextIs (exec (.pollDiscover 1) (atEnd 1 1 0x81))
      (fun t => t.pendAddr == 1 && t.pendSub == 0x80 && t.cntPoll == 1 && t.state == .respondPending) := by decide

theorem test_pollType :
    nextIs (exec (.pollType 10) (atEnd 10 1 0x9A)) (fun t => t.pendAddr == 10 && t.pendSub == 0x90 && t.tx == []) := by decide

/-- PR1, the Value poll. -/
theorem test_pollValue :
    nextIs (exec (.pollValue 1) (atEnd 1 1 0xA1)) (fun t => t.pendAddr == 1 && t.pendSub == 0xA0 && t.cntPoll == 1) := by
  decide

/-- V42-4. -/
theorem test_pollOther :
    nextIs (exec (.pollOther 0xF 1) (atEnd 1 1 0xF1)) (fun t => t.pendSub == 0xF0 && t.state == .respondPending) ∧
      nextIs (exec (.pollOther 0x4 1) (atEnd 1 1 0x41)) (fun t => t.pendSub == 0x40 && t.cntChannel == 0) := by decide

/-- V41-2: address 15 and the length guard. -/
theorem test_unrecognised :
    nextIs (exec (.unrecognised 0x04 0x8F) (atEnd 10 1 0x8F)) (fun t => t.state == .idle && t.errors == [.addressOutOfRange]) ∧
      nextIs (exec (.unrecognised 0x05 0x81) (atEnd 1 2 0x81)) (fun t => t.state == .idle && t.errors == [.unknownCommand]) := by
  decide

/-- PR1, EMIT; S7, no EMIT with nothing pending. -/
theorem test_emit :
    nextIs (exec .emit (pendingWith 0xA0 1)) (fun t => t.tx == [0x06, 0xA1, 0x34, 0x12, 0x12, 0xFF] && t.cntReply == 1) ∧
      refusalIs (exec .emit State.reset) .nothingPending := by decide

/-- V42-1, address 10. -/
theorem test_replyDiscover :
    nextIs (exec (.replyDiscover 10) (pendingWith 0x80 10))
      (fun t => t.tx == [0x04, 0x8A, 0x71, 0xFF] && t.pendAddr == 0 && t.state == .idle) := by decide

/-- V42-2, addresses 1 and 10. -/
theorem test_replyType :
    nextIs (exec (.replyType 1) (pendingWith 0x90 1)) (fun t => t.tx == [0x06, 0x91, 0x01, 0x02, 0x65, 0xFF]) ∧
      nextIs (exec (.replyType 10) (pendingWith 0x90 10)) (fun t => t.tx == [0x06, 0x9A, 0x09, 0x02, 0x54, 0xFF]) := by
  decide

/-- V42-3, addresses 1 and 10. -/
theorem test_replyValue :
    nextIs (exec (.replyValue 1) (pendingWith 0xA0 1)) (fun t => t.tx == [0x06, 0xA1, 0x34, 0x12, 0x12, 0xFF]) ∧
      nextIs (exec (.replyValue 10) (pendingWith 0xA0 10)) (fun t => t.tx == [0x06, 0xAA, 0x00, 0xFF, 0x50, 0xFE]) := by
  decide

/-- R33: no registry entry has the address 0 (entry 11). -/
theorem test_replyType_noEntry : faultIs (exec (.replyType 0) (pendingWith 0x90 0)) .noSuchSensorEntry := by decide

/-- V42-4: a cancelled poll sends nothing. -/
theorem test_replyCancel :
    nextIs (exec .replyCancel (pendingWith 0xB0 1))
      (fun t => t.tx == [] && t.cntReply == 0 && t.events == [] && t.state == .idle && t.pendAddr == 0) := by decide

/-- V43-1: the tenth sensor, and the eleventh. -/
theorem test_addSensor :
    nextIs (exec (.addSensor 0x77) (withSensors 9)) (fun t => t.sensorCount == 10 && t.sensorType[9] == 0x77 &&
        t.results == [.address 10]) ∧
      nextIs (exec (.addSensor 0x77) (withSensors 10)) (fun t => t.sensorCount == 10 && t.sensorType[9] == 0x09 &&
        t.results == [.address 10]) := by decide

/-- V43-2. -/
theorem test_setMeas :
    nextIs (exec (.setMeas 10 0xBEEF) (withSensors 10)) (fun t => t.sensorValue[9] == 0xBEEF && t.sensorValue[0] == 0x1234) ∧
      nextIs (exec (.setMeas 2 0xBEEF) (withSensors 1)) (fun t => t.sensorValue == (withSensors 1).sensorValue) := by decide

/-- V43-3: an index of 14 reads 0x0000. -/
theorem test_readChannel :
    nextIs (exec (.readChannel 13) { State.reset with ch := Vector.replicate 14 0x05DC })
        (fun t => t.results == [.channel 0x05DC]) ∧
      nextIs (exec (.readChannel 14) { State.reset with ch := Vector.replicate 14 0x05DC })
        (fun t => t.results == [.channel 0x0000]) := by decide

/-- V43-4: the order of the counters. -/
theorem test_readCounters :
    nextIs (exec .readCounters { State.reset with cntChannel := 1, cntPoll := 2, cntReply := 3 })
      (fun t => t.results == [.counters 1 2 3]) := by decide

/-- V70-2. -/
theorem test_reset : nextIs (exec .reset (pendingWith 0xA0 1)) (fun t => t == State.reset) := by decide

/-- R58: byte `k` of a script line comes at `T + k * d`. -/
theorem test_script :
    (placeScript State.reset [.bytes 11 1 [0x04, 0x00], .emit]).rx = [⟨0x04, 11⟩, ⟨0x00, 12⟩] ∧
      (placeScript State.reset [.bytes 11 1 [0x04, 0x00], .emit]).turns = [.driver, .driver, .driver] := by decide

/-! ### Witnesses: the hypotheses of each statement are met, each clause at the ends of its range -/

/-- Bytes presented together, 100 ms after reset, are one burst. -/
theorem oneBurst_timed (b : Byte) (bs : List Byte) : oneBurst Config.standard 0 (timed 100 0 (b :: bs)) := by
  have e0 : Config.gapMs ≤ elapsed Config.standard 100 0 := by decide
  have e1 : ¬ Config.gapMs ≤ elapsed Config.standard 100 100 := by decide
  have h : ∀ bs : List Byte, noGaps Config.standard 100 (timed 100 0 bs) := by
    intro bs
    induction bs with
    | nil => trivial
    | cons b bs ih => exact ⟨e1, ih⟩
  exact ⟨e0, h bs⟩

/-- Bytes presented within 2 ms of reset have no gap before them. -/
theorem noGaps_timed (bs : List Byte) : noGaps Config.standard 0 (timed 0 0 bs) := by
  have e : ¬ Config.gapMs ≤ elapsed Config.standard 0 0 := by decide
  induction bs with
  | nil => trivial
  | cons b bs ih => exact ⟨e, ih⟩

theorem map_timed (t d : Nat) (bs : List Byte) : (timed t d bs).map RxByte.byte = bs := by
  induction bs generalizing t with
  | nil => rfl
  | cons b bs ih => simp [timed, ih]

theorem witness_StepRunsTheNextMove :
    State.reset.turns = [] ∧ (called State.reset .readCounters).turns = [.host .readCounters] ∧
      ((driven (pendingWith 0x80 1) []).turns = [.driver] ∧ (driven (pendingWith 0x80 1) []).state = .respondPending) ∧
      ((driven State.reset []).turns = [.driver] ∧ (driven State.reset []).state ≠ .respondPending ∧
        (driven State.reset []).rx = []) ∧
      ((driven State.reset [⟨4, 100⟩]).turns = [.driver] ∧ (driven State.reset [⟨4, 100⟩]).state ≠ .respondPending ∧
        (driven State.reset [⟨4, 100⟩]).rx = [⟨4, 100⟩]) := by decide

theorem witness_GapRuleRestartsAtThreeMilliseconds :
    let s := { inState .collectPayload 5 1 with lastMs := 4294967294 }
    s.state ≠ .respondPending ∧ s.lastMs < 2 ^ s.cfg.timeW ∧ 2 < 2 ^ s.cfg.timeW ∧ 3 < 2 ^ s.cfg.timeW := by decide

theorem witness_RxbyteRunsTheSelectedPart : (inState .collectPayload 5 1).state ≠ .respondPending := by decide

theorem witness_RxbyteCompletes :
    ((inState .collectPayload 29 28).state ≠ .respondPending ∧ (inState .collectPayload 29 28).processedIn 102 = .collectPayload ∧
        (inState .collectPayload 29 28).payloadIdx.toNat < 29) ∧
      ((inState .collectPayload 29 0).processedIn 102 = .collectPayload ∧
        (inState .collectPayload 29 0).payloadIdx.toNat < 29) ∧
      (inState .collectPayload 31 31).processedIn 103 = .awaitLength ∧
      (∀ st : FsmState, st ∈ [.idle, .awaitChecksumLow, .awaitChecksumHigh] → (inState st 1 1).processedIn 102 = st) := by
  decide

theorem witness_IdleDropsTheByte : State.reset.state = .idle := by decide

theorem witness_LengthByteIsRecordedOrDropped :
    (inState .awaitLength 5 1).state = .awaitLength ∧ (4 ≤ (0x04 : Byte).toNat ∧ (0x04 : Byte).toNat ≤ 0x20) ∧
      (4 ≤ (0x20 : Byte).toNat ∧ (0x20 : Byte).toNat ≤ 0x20) ∧ ((0x03 : Byte).toNat ≤ 3 ∨ 0x21 ≤ (0x03 : Byte).toNat) ∧
      ((0x21 : Byte).toNat ≤ 3 ∨ 0x21 ≤ (0x21 : Byte).toNat) := by decide

theorem witness_PayloadByteIsStored :
    ((inState .collectPayload 29 0).payloadIdx.toNat < 29 ∧ (inState .collectPayload 29 0).state = .collectPayload) ∧
      ((inState .collectPayload 29 28).payloadIdx.toNat < 29 ∧ (inState .collectPayload 29 28).state = .collectPayload) := by
  decide

theorem witness_LowChecksumByteIsHeld : (inState .awaitChecksumLow 1 1).state = .awaitChecksumLow := by decide

theorem witness_HighChecksumByteGivesTheVerdict :
    let s := atEnd 1 1 0x81
    s.state = .awaitChecksumHigh ∧ (0xFE : Byte).toNat * 256 + s.cksumLo.toNat ≠ s.cksumRun.toNat ∧
      (0xFF : Byte).toNat * 256 + s.cksumLo.toNat = s.cksumRun.toNat := by decide

theorem witness_PendingDecidesWhoMayStep :
    (pendingWith 0x80 1).state = .respondPending ∧ State.reset.state ≠ .respondPending := by decide

theorem witness_DispatchTakesTheFirstTestThatHolds :
    ((atEnd 1 29 0x40).state = .awaitChecksumHigh ∧ (atEnd 1 29 0x40).payload[0] = 0x40) ∧
      (let s := atEnd 10 1 0x81
       s.payload[0] ≠ 0x40 ∧ 1 ≤ s.payload[0].toNat % 16 ∧ s.payload[0].toNat % 16 ≤ s.sensorCount.toNat ∧
         s.frameLen.toNat = 1) ∧
      (let s := atEnd 10 1 0x8A
       s.payload[0] ≠ 0x40 ∧ 1 ≤ s.payload[0].toNat % 16 ∧ s.payload[0].toNat % 16 ≤ s.sensorCount.toNat ∧
         s.frameLen.toNat = 1) ∧
      (let s := atEnd 10 1 0x8B
       s.payload[0] ≠ 0x40 ∧
         ¬ (1 ≤ s.payload[0].toNat % 16 ∧ s.payload[0].toNat % 16 ≤ s.sensorCount.toNat ∧ s.frameLen.toNat = 1)) ∧
      (let s := atEnd 10 1 0x80
       s.payload[0] ≠ 0x40 ∧
         ¬ (1 ≤ s.payload[0].toNat % 16 ∧ s.payload[0].toNat % 16 ≤ s.sensorCount.toNat ∧ s.frameLen.toNat = 1)) := by
  decide

theorem witness_DispatchRunsTheDecodedCommand : (atEnd 1 1 0x81).state = .awaitChecksumHigh := by decide

theorem witness_ChannelFrameWritesAllFourteen :
    ((atEnd 0 29 0x40).state = .awaitChecksumHigh ∧ (0x20 : Byte).toNat = (atEnd 0 29 0x40).frameLen.toNat + 3 ∧
        (atEnd 0 29 0x40).payload[0] = 0x40) ∧
      ((atEnd 0 1 0x40).state = .awaitChecksumHigh ∧ (0x04 : Byte).toNat = (atEnd 0 1 0x40).frameLen.toNat + 3 ∧
        (atEnd 0 1 0x40).payload[0] = 0x40) := by decide

theorem witness_PollsEnterRespondPending :
    ∀ c ∈ [(0x81, 1), (0x91, 1), (0xA1, 1), (0x41, 1), (0x01, 1), (0xF1, 1), (0x8A, 10), (0x9A, 10), (0xAA, 10), (0x7A, 10)],
      (atEnd 10 1 (BitVec.ofNat 8 c.1)).state = .awaitChecksumHigh ∧
        (atEnd 10 1 (BitVec.ofNat 8 c.1)).frameLen.toNat = 1 ∧ 1 ≤ (BitVec.ofNat 4 c.2).toNat ∧
        (BitVec.ofNat 4 c.2).toNat ≤ (atEnd 10 1 (BitVec.ofNat 8 c.1)).sensorCount.toNat ∧
        (atEnd 10 1 (BitVec.ofNat 8 c.1)).payload[0].toNat = 16 * (c.1 / 16) + (BitVec.ofNat 4 c.2).toNat := by decide

theorem witness_UnrecognisedFramesAreDropped :
    ∀ c ∈ [(1, 0x80), (1, 0x8B), (1, 0x00), (2, 0x81), (29, 0xFF)],
      (atEnd 10 (BitVec.ofNat 5 c.1) c.2).state = .awaitChecksumHigh ∧
        (BitVec.ofNat 8 (c.1 + 3)).toNat = (atEnd 10 (BitVec.ofNat 5 c.1) c.2).frameLen.toNat + 3 ∧
        (atEnd 10 (BitVec.ofNat 5 c.1) c.2).payload[0] = c.2 ∧ c.2 ≠ 0x40 ∧
        ¬ (1 ≤ c.2.toNat % 16 ∧ c.2.toNat % 16 ≤ (atEnd 10 (BitVec.ofNat 5 c.1) c.2).sensorCount.toNat ∧
          (atEnd 10 (BitVec.ofNat 5 c.1) c.2).frameLen.toNat = 1) := by decide

theorem witness_OnlyLengthFourFramesArePolls :
    ((atEnd 1 2 0x81).state = .awaitChecksumHigh ∧ (atEnd 1 2 0x81).frameLen.toNat + 3 ≠ 4 ∧
        (∃ t, exec .dispatch (atEnd 1 2 0x81) = .next t)) ∧
      encodeHeader (.replyType 1) = some (.tx, 0x0691) ∧ encodeHeader (.replyValue 10) = some (.tx, 0x06AA) ∧
      encodeHeader (.replyDiscover 1) = some (.tx, 0x0481) ∧ (withSensors 1).registered 1 = true :=
  ⟨⟨rfl, by decide, ⟨_, rfl⟩⟩, by decide, by decide, by decide, by decide⟩

theorem witness_EmitRunsItsOutcomeAndReturnsToIdle :
    (pendingWith 0x80 1).state = .respondPending ∧
      ((pendingWith 0x90 1).pendSub = 0x90 ∧ 1 ≤ (pendingWith 0x90 1).pendAddr.toNat) ∧
      ((pendingWith 0xA0 10).pendSub = 0xA0 ∧ (pendingWith 0xA0 10).pendAddr.toNat ≤ 10) ∧
      ¬ ((pendingWith 0xB0 1).pendSub = 0x90 ∨ (pendingWith 0xB0 1).pendSub = 0xA0) := by decide

theorem witness_DiscoverReplyBytes :
    (pendingWith 0x80 10).state = .respondPending ∧ (pendingWith 0x80 10).pendSub = 0x80 ∧
      (pendingWith 0x80 10).pendAddr = 10 := by decide

theorem witness_TypeReplyBytes :
    ∀ k : Fin 10, (pendingWith 0x90 (BitVec.ofNat 4 (k + 1))).state = .respondPending ∧
      (pendingWith 0x90 (BitVec.ofNat 4 (k + 1))).pendSub = 0x90 ∧
      (pendingWith 0x90 (BitVec.ofNat 4 (k + 1))).pendAddr = BitVec.ofNat 4 (k + 1) ∧
      (BitVec.ofNat 4 (k + 1)).toNat = k.val + 1 := by decide

theorem witness_ValueReplyBytes :
    ∀ k : Fin 10, (pendingWith 0xA0 (BitVec.ofNat 4 (k + 1))).state = .respondPending ∧
      (pendingWith 0xA0 (BitVec.ofNat 4 (k + 1))).pendSub = 0xA0 ∧
      (pendingWith 0xA0 (BitVec.ofNat 4 (k + 1))).pendAddr = BitVec.ofNat 4 (k + 1) ∧
      (BitVec.ofNat 4 (k + 1)).toNat = k.val + 1 := by decide

theorem witness_CancelSendsNothing :
    (pendingWith 0xB0 1).state = .respondPending ∧ (pendingWith 0xB0 1).pendSub ≠ 0x80 ∧
      (pendingWith 0xB0 1).pendSub ≠ 0x90 ∧ (pendingWith 0xB0 1).pendSub ≠ 0xA0 := by decide

theorem witness_RepliesAreCountedAndReported :
    (∃ t, exec (.replyDiscover 1) (pendingWith 0x80 1) = .next t) ∧
      (∃ t, exec (.replyType 10) (pendingWith 0x90 10) = .next t) ∧
      (∃ t, exec (.replyValue 10) (pendingWith 0xA0 10) = .next t) := ⟨⟨_, rfl⟩, ⟨_, rfl⟩, ⟨_, rfl⟩⟩

theorem witness_AddSensorAppends : (withSensors 0).sensorCount.toNat < 10 ∧ (withSensors 9).sensorCount.toNat < 10 := by
  decide

theorem witness_FullRegistryIsUnchanged : (withSensors 10).sensorCount.toNat = 10 := by decide

theorem witness_SetMeasWritesOneEntry :
    ((1 : Byte).toNat = (0 : Fin 10).val + 1 ∧ (1 : Byte).toNat ≤ (withSensors 1).sensorCount.toNat) ∧
      ((10 : Byte).toNat = (9 : Fin 10).val + 1 ∧ (10 : Byte).toNat ≤ (withSensors 10).sensorCount.toNat) ∧
      (0 : Byte).toNat = 0 ∧ (withSensors 10).sensorCount.toNat < (11 : Byte).toNat ∧
      (withSensors 1).sensorCount.toNat < (2 : Byte).toNat := by decide

theorem witness_ReadsAnswerAndChangeNothing : 14 ≤ 14 ∧ (13 : Fin 14).val = 13 := by decide

theorem witness_DecodeOfEncodeReceived :
    (Instr.unrecognised 0x05 0x81).wfFor anyAddress = true ∧
      encodeHeader (.unrecognised 0x05 0x81) = some (.rx, 0x0581) ∧ (hi8 0x0581).toNat = [(0x00 : Byte)].length + 4 ∧
      encode (.unrecognised 0x05 0x81) [0x00] = some [0x05, 0x81, 0x00, 0x79, 0xFF] ∧
      (Instr.channels 0x20).wfFor anyAddress = true ∧ encodeHeader (.channels 0x20) = some (.rx, 0x2040) ∧
      (hi8 0x2040).toNat = (List.replicate 28 (0xFF : Byte)).length + 4 ∧
      encode (.channels 0x20) (List.replicate 28 0xFF) =
        some (0x20 :: 0x40 :: (List.replicate 28 0xFF ++ [0xBB, 0xE3])) := by decide

theorem witness_DecodeOfEncodeTransmitted :
    (encodeHeader (.replyValue 1) = some (.tx, 0x06A1) ∧ (hi8 0x06A1).toNat = [(0x34 : Byte), 0x12].length + 4 ∧
        encode (.replyValue 1) [0x34, 0x12] = some [0x06, 0xA1, 0x34, 0x12, 0x12, 0xFF]) ∧
      (encodeHeader (.replyDiscover 10) = some (.tx, 0x048A) ∧ (hi8 0x048A).toNat = ([] : List Byte).length + 4 ∧
        encode (.replyDiscover 10) [] = some [0x04, 0x8A, 0x71, 0xFF]) := by decide

theorem witness_EncodeOfDecodeReceived :
    decodeRxFrame anyAddress [0x04, 0xF1, 0x0A, 0xFF, 0x00] = .ok (.pollOther 15 1, [], [0x00]) := rfl

theorem witness_DecodeFollowsTheCommandMap :
    (0x40 : Byte) = 0x40 ∧
      (∀ c ∈ ([0x81, 0x91, 0xA1, 0x41, 0x8A, 0x9A, 0xAA, 0xFA] : List Byte), c ≠ 0x40 ∧ 1 ≤ c.toNat % 16 ∧
        c.toNat % 16 ≤ (withSensors 10).sensorCount.toNat) ∧
      (∀ c ∈ ([0x80, 0x8B, 0x00] : List Byte), c ≠ 0x40 ∧
        ¬ (1 ≤ c.toNat % 16 ∧ c.toNat % 16 ≤ (withSensors 10).sensorCount.toNat ∧ (4 : Byte) = 4)) ∧
      ((0x81 : Byte) ≠ 0x40 ∧ ¬ ((5 : Byte) = 4)) := by decide

theorem witness_WholeFrameRunsItsCommand :
    (withSensors 1).state ≠ .respondPending ∧
      oneBurst (withSensors 1).cfg (withSensors 1).lastMs (timed 100 0 [0x04, 0x81, 0x7A, 0xFF]) ∧
      decodeRxFrame (withSensors 1).registered ((timed 100 0 [0x04, 0x81, 0x7A, 0xFF]).map RxByte.byte) =
        .ok (.pollDiscover 1, [], []) := ⟨by decide, oneBurst_timed _ _, rfl⟩

theorem witness_BadChecksumFrameIsDropped :
    ∃ (rs : List RxByte) (len lo hi : Byte) (payload : List Byte), (withSensors 1).state ≠ .respondPending ∧
      oneBurst (withSensors 1).cfg (withSensors 1).lastMs rs ∧ rs.map RxByte.byte = len :: (payload ++ [lo, hi]) ∧
      1 ≤ payload.length ∧ payload.length ≤ 29 ∧ len.toNat = payload.length + 3 ∧
      len.toNat + byteSum payload + (hi.toNat * 256 + lo.toNat) ≠ 0xFFFF :=
  ⟨timed 100 0 [0x04, 0x81, 0x7B, 0xFF], 0x04, 0x7B, 0xFF, [0x81], by decide, oneBurst_timed _ _, map_timed _ _ _,
    by decide, by decide, by decide, by decide⟩

theorem witness_BadLengthDropsUntilAGap :
    ∃ (r r' : RxByte) (rs : List RxByte), State.reset.state ≠ .respondPending ∧
      oneBurst State.reset.cfg State.reset.lastMs (r :: rs) ∧ oneBurst State.reset.cfg State.reset.lastMs (r' :: rs) ∧
      (r.byte.toNat ≤ 3 ∨ 0x20 < r.byte.toNat) ∧ (r'.byte.toNat ≤ 3 ∨ 0x20 < r'.byte.toNat) ∧ r.byte = 0x03 ∧
      r'.byte = 0x21 :=
  ⟨⟨0x03, 100⟩, ⟨0x21, 100⟩, timed 100 0 [0x04, 0x81, 0x7A, 0xFF], by decide, oneBurst_timed _ _, oneBurst_timed _ _,
    by decide, by decide, rfl, rfl⟩

theorem witness_NoResynchronisationWithoutSilence :
    State.reset.state = .idle ∧
      noGaps State.reset.cfg State.reset.lastMs (timed 0 0 [0x04, 0x40, 0xBB, 0xFF]) := ⟨rfl, noGaps_timed _⟩

theorem witness_AcceptedIffTheSumIsFFFF :
    ((0x04 : Byte).toNat = ([] : List Byte).length + 4 ∧ (0x04 : Byte).toNat ≤ 32) ∧
      ((0x20 : Byte).toNat = (List.replicate 28 (0xFF : Byte)).length + 4 ∧ (0x20 : Byte).toNat ≤ 32) := by decide

theorem witness_SingleByteErrorsAreDetected :
    parseFrame [0x04, 0x81, 0x7A, 0xFF] = .ok ⟨0x0481, [], []⟩ ∧
      (∃ h : 1 < [(0x04 : Byte), 0x81, 0x7A, 0xFF].length, (0x82 : Byte) ≠ [(0x04 : Byte), 0x81, 0x7A, 0xFF][1]) ∧
      (∃ h : 3 < [(0x04 : Byte), 0x81, 0x7A, 0xFF].length, (0xFE : Byte) ≠ [(0x04 : Byte), 0x81, 0x7A, 0xFF][3]) :=
  ⟨rfl, ⟨by decide, by decide⟩, ⟨by decide, by decide⟩⟩

theorem witness_ShortChannelFrameReadsTheOldBuffer :
    ∀ data ∈ ([[], [0x11], [0x11, 0x22], List.replicate 27 0x33, List.replicate 28 0x33] : List (List Byte)),
      ∃ (rs : List RxByte) (bs : List Byte), State.reset.state ≠ .respondPending ∧
        oneBurst State.reset.cfg State.reset.lastMs rs ∧ data.length ≤ 28 ∧
        encode (.channels (BitVec.ofNat 8 (data.length + 4))) data = some bs ∧ rs.map RxByte.byte = bs := by
  intro data hd
  refine ⟨timed 100 0 (BitVec.ofNat 8 (data.length + 4) :: 0x40 :: (data ++ [lo8 (checksum (BitVec.ofNat 8 (data.length + 4)
    :: 0x40 :: data)), hi8 (checksum (BitVec.ofNat 8 (data.length + 4) :: 0x40 :: data))])), _, by decide,
    oneBurst_timed _ _, ?_, ?_, map_timed _ _ _⟩
  · revert data; decide
  · simp [encode, encodeHeader, withChecksum]

/-- The receiver in the middle of a poll frame (V40-4, row 7A), with one sensor registered, a driver invocation due and the last
byte waiting. -/
def lastByteDue : State :=
  driven { atEnd 1 1 0x81 with sensorType := State.reset.sensorType.set 0 0x01,
                               sensorValue := State.reset.sensorValue.set 0 0x1234 } [⟨0xFF, 0⟩]

theorem lastByteDue_inv : lastByteDue.Inv where
  params := by decide
  time := by decide
  channelCount := by decide
  pollCount := by decide
  replyCount := by decide
  transmitted := by decide
  resting := by decide
  lenMax := by decide
  lenMin := fun _ => by decide
  indexInside := by decide
  indexEnd := by decide
  runningSum := fun _ => by decide
  pending := by decide
  nonePending := by decide
  subLow := by decide
  capacity := by decide
  unregistered := by decide

theorem witness_StepKeepsInv : lastByteDue.Inv ∧ ∃ t, step lastByteDue = .next t := ⟨lastByteDue_inv, ⟨_, rfl⟩⟩

theorem witness_InvStatesNeverStop : lastByteDue.Inv := lastByteDue_inv

theorem witness_RunningChecksumNeverBorrows : lastByteDue.Inv ∧ lastByteDue.inFrame :=
  ⟨lastByteDue_inv, by unfold State.inFrame; decide⟩

theorem witness_OnlyAPollStartsAResponse :
    ∃ t, step lastByteDue = .next t ∧ lastByteDue.state ≠ .respondPending ∧ t.state = .respondPending :=
  ⟨_, rfl, by decide, rfl⟩

theorem witness_PendingIsLeftOnlyByEmitOrReset :
    (∃ t, step (driven (pendingWith 0x80 1) []) = .next t ∧ t.state = .idle) ∧
      (∃ t, step (called (pendingWith 0x80 1) .reset) = .next t ∧ t.state = .idle) ∧
      (∃ t, step (called (pendingWith 0x80 1) .readCounters) = .next t ∧ t.state = .respondPending) :=
  ⟨⟨_, rfl, rfl⟩, ⟨_, rfl, rfl⟩, ⟨_, rfl, rfl⟩⟩

theorem witness_StepEmitsAtMostOneEvent :
    (∃ t, step lastByteDue = .next t ∧ t.events = []) ∧ lastByteDue.turns.head? ≠ some (.host .reset) ∧
      (∃ t, step (driven (pendingWith 0x80 1) []) = .next t ∧ t.events = [.replyReady [0x04, 0x81, 0x7A, 0xFF]]) ∧
      (∃ t, step (driven (atEnd 0 1 0x40) [⟨0xFF, 0⟩]) = .next t ∧ t.events = [.channelsUpdated]) :=
  ⟨⟨_, rfl, rfl⟩, by decide, ⟨_, rfl, rfl⟩, ⟨_, rfl, rfl⟩⟩

theorem witness_HostMovesTouchOnlyTheRegistry :
    (called (withSensors 1) (.setMeas 1 0xBEEF)).turns = [.host (.setMeas 1 0xBEEF)] ∧
      HostCall.setMeas 1 0xBEEF ≠ .reset ∧ (∃ t, step (called (withSensors 1) (.setMeas 1 0xBEEF)) = .next t) :=
  ⟨rfl, by decide, ⟨_, rfl⟩⟩

theorem witness_DriverMovesLeaveTheRegistry : lastByteDue.turns = [.driver] ∧ ∃ t, step lastByteDue = .next t :=
  ⟨rfl, ⟨_, rfl⟩⟩

theorem witness_RegisteredSensorsPersist :
    (∃ t, step (called (withSensors 1) (.addSensor 0x02)) = .next t) ∧
      (called (withSensors 1) (.addSensor 0x02)).turns.head? ≠ some (.host .reset) ∧
      (0 : Fin 10).val < (called (withSensors 1) (.addSensor 0x02)).sensorCount.toNat := ⟨⟨_, rfl⟩, by decide, by decide⟩

theorem witness_GhostsDecideNothing :
    lastByteDue.sameButGhosts { lastByteDue with tx := [0x00], errors := [.framingError] } ∧
      ∃ t, step lastByteDue = .next t := ⟨⟨rfl, rfl, rfl⟩, ⟨_, rfl⟩⟩

theorem witness_InputsAreConsumedInOrder :
    ∃ t, step lastByteDue = .next t ∧ lastByteDue.rx = ⟨0xFF, 0⟩ :: t.rx := ⟨_, rfl, rfl⟩

theorem witness_ValueReplyCarriesTheLastMeasurement :
    ∀ a ∈ ([1, 10] : List Nibble), (pendingWith 0xA0 a).state = .respondPending ∧ (pendingWith 0xA0 a).pendSub = 0xA0 ∧
      1 ≤ (pendingWith 0xA0 a).pendAddr.toNat ∧
      (pendingWith 0xA0 a).pendAddr.toNat ≤ (pendingWith 0xA0 a).sensorCount.toNat ∧
      (pendingWith 0xA0 a).sensorCount.toNat ≤ 10 := by decide

theorem witness_DiscoverPollIsAnsweredByEmit :
    ∃ rs : List RxByte, (withSensors 10).state ≠ .respondPending ∧
      oneBurst (withSensors 10).cfg (withSensors 10).lastMs rs ∧ 1 ≤ (10 : Nibble).toNat ∧
      (10 : Nibble).toNat ≤ (withSensors 10).sensorCount.toNat ∧ rs.map RxByte.byte = discoverForm 10 :=
  ⟨timed 100 0 (discoverForm 10), by decide, oneBurst_timed _ _, by decide, by decide, map_timed _ _ _⟩

end Sys2Proof.Tests
end

section
/-! The encoding of replies and the command map (30_encoding.md): fields, command bytes and checksums as numbers, what each
reply row transmits, what each branch of the decoder answers; then the statements O21, O22, O23 and O33. -/

namespace Sys2Proof

/-! ### Fields and checksums as numbers -/

theorem lo8_eq_ofNat (w : Word) : lo8 w = BitVec.ofNat 8 (w.toNat % 256) := by
  rw [← lo8_toNat, BitVec.ofNat_toNat, BitVec.setWidth_eq]

theorem hi8_eq_ofNat (w : Word) : hi8 w = BitVec.ofNat 8 (w.toNat / 256) := by
  rw [← hi8_toNat, BitVec.ofNat_toNat, BitVec.setWidth_eq]

theorem addrOf_eq_ofNat (c : Byte) : addrOf c = BitVec.ofNat 4 c.toNat := by
  apply BitVec.eq_of_toNat_eq; simp [addrOf_toNat]

theorem subNibble_eq_ofNat (c : Byte) : subNibble c = BitVec.ofNat 4 (c.toNat / 16) := by
  rw [← subNibble_toNat, BitVec.ofNat_toNat, BitVec.setWidth_eq]

theorem subNibble_eq_iff (c : Byte) (n : Nibble) : subNibble c = n ↔ c.toNat / 16 = n.toNat := by
  rw [← BitVec.toNat_inj, subNibble_toNat]

theorem cmdByte_eq_ofNat (sub : Byte) (a : Nibble) : cmdByte sub a = BitVec.ofNat 8 (sub.toNat + a.toNat) := by
  apply BitVec.eq_of_toNat_eq; simp [cmdByte]

/-- R50: a sub-command in place leaves the low nibble free, so adding the address carries nothing out of the byte. -/
theorem cmdByte_toNat {sub : Byte} (h : addrOf sub = 0) (a : Nibble) : (cmdByte sub a).toNat = sub.toNat + a.toNat := by
  have hlow : sub.toNat % 16 = 0 := by rw [← addrOf_toNat, h]; rfl
  have ha := a.isLt
  have hs := sub.isLt
  rw [cmdByte_eq_ofNat, BitVec.toNat_ofNat]
  omega

/-- R70, R71, R86: the two bytes after a body of at most 257 bytes, whose sum fits a word, by arithmetic. -/
theorem withChecksum_eq {body : List Byte} {ck : Nat} (hlen : body.length ≤ 257)
    (hck : ck = 0xFFFF - (body.map BitVec.toNat).sum) :
    withChecksum body = body ++ [BitVec.ofNat 8 (ck % 256), BitVec.ofNat 8 (ck / 256)] := by
  have hsum := byte_sum_le body
  rw [withChecksum, lo8_eq_ofNat, hi8_eq_ofNat, checksum_toNat body (by omega), hck]

/-! ### The branches of the command map (R54) -/

theorem decodeRx_channels (reg : Nibble → Bool) (len : Byte) :
    decodeRx reg (headerOf len Config.cmdChannels) = .channels len := by
  simp [decodeRx]

/-- R54: a length-4 frame with a registered address is a poll, by the high nibble of its command. -/
theorem decodeRx_registered {reg : Nibble → Bool} {c : Byte} (hc : c ≠ Config.cmdChannels) (hr : reg (addrOf c) = true) :
    decodeRx reg (headerOf Config.lenPoll c) =
      if c.toNat / 16 = 8 then .pollDiscover (addrOf c)
      else if c.toNat / 16 = 9 then .pollType (addrOf c)
      else if c.toNat / 16 = 10 then .pollValue (addrOf c)
      else .pollOther (subNibble c) (addrOf c) := by
  have hsplit : cmdByte (subInPlace (subNibble c)) (addrOf c) = c := by
    rw [subInPlace_subNibble, cmdByte_subOf_addrOf]
  have key := Laws.decodeRx_poll reg (subNibble c) (addrOf c) hr (by rwa [hsplit])
  simp only [hsplit, subNibble_eq_iff] at key
  exact key

theorem decodeRx_unrecognised {reg : Nibble → Bool} {len c : Byte} (hc : c ≠ Config.cmdChannels)
    (hp : ¬ (reg (addrOf c) = true ∧ len = Config.lenPoll)) : decodeRx reg (headerOf len c) = .unrecognised len c := by
  have hguard : ¬ (reg (addrOf c) && len == Config.lenPoll) = true := by simpa using hp
  simp only [decodeRx, lo8_headerOf, hi8_headerOf, if_neg hc, if_neg hguard]

namespace Machine

/-- R33: the entry of address `k + 1` is element `k`. -/
theorem sensorSlot_succ (k : Fin Config.maxSensors) : sensorSlot (k.val + 1) = some k :=
  sensorSlot_of_range (Nat.succ_pos _) k.isLt

/-- R33, R79: the registered addresses, asked of the low nibble of a command byte. -/
theorem registered_addrOf_iff (s : State) (c : Byte) :
    s.registered (addrOf c) = true ↔ 1 ≤ c.toNat % 16 ∧ c.toNat % 16 ≤ s.sensorCount.toNat := by
  rw [registered_iff, addrOf_toNat]

/-! ### What each reply row sends -/

theorem pendingIs_iff (s : State) (sub : Byte) (a : Nibble) :
    s.pendingIs sub a = true ↔ s.state = .respondPending ∧ s.pendSub = sub ∧ s.pendAddr = a := by
  simp [State.pendingIs, and_assoc]

theorem exec_replyDiscover {s : State} {a : Nibble} (h : s.pendingIs Config.subDiscover a = true) :
    exec (.replyDiscover a) s = .next (s.sendReply (discoverBody a)) := by
  simp only [exec, execReplyDiscover, if_pos h]

theorem exec_replyType {s : State} {a : Nibble} {k : Fin Config.maxSensors} (h : s.pendingIs Config.subType a = true)
    (hk : a.toNat = k.val + 1) : exec (.replyType a) s = .next (s.sendReply (typeBody a s.sensorType[k])) := by
  simp only [exec, execReplyType, if_pos h, hk, sensorSlot_succ]

theorem exec_replyValue {s : State} {a : Nibble} {k : Fin Config.maxSensors} (h : s.pendingIs Config.subValue a = true)
    (hk : a.toNat = k.val + 1) : exec (.replyValue a) s = .next (s.sendReply (valueBody a s.sensorValue[k])) := by
  simp only [exec, execReplyValue, if_pos h, hk, sensorSlot_succ]

/-! ### The bodies of the replies as numbers -/

/-- R51: the reply to a Discover poll is the poll itself. -/
theorem withChecksum_discoverBody (a : Nibble) : withChecksum (discoverBody a) = discoverForm a := rfl

theorem discoverBody_sum (a : Nibble) : ((discoverBody a).map BitVec.toNat).sum = 0x04 + (0x80 + a.toNat) := by
  simp (disch := decide) [discoverBody, cmdByte_toNat]

theorem typeBody_sum (a : Nibble) (t : Byte) :
    ((typeBody a t).map BitVec.toNat).sum = 0x06 + (0x90 + a.toNat) + t.toNat + 0x02 := by
  simp (disch := decide) [typeBody, cmdByte_toNat, Nat.add_assoc]

theorem valueBody_sum (a : Nibble) (v : Word) :
    ((valueBody a v).map BitVec.toNat).sum = 0x06 + (0xA0 + a.toNat) + v.toNat % 256 + v.toNat / 256 := by
  simp (disch := decide) [valueBody, cmdByte_toNat, lo8_toNat, hi8_toNat, Nat.add_assoc]

/-! ### The statements -/

/-- Settles O21: the row sends the Discover body, whose sum is `0x04 + 0x80 + a`. -/
theorem discoverReplyBytes : Obligations.DiscoverReplyBytes := by
  intro s a hstate hsub haddr
  have hpend := (pendingIs_iff s Config.subDiscover a).2 ⟨hstate, hsub, haddr⟩
  refine ⟨_, _, exec_replyDiscover hpend, rfl, ?_, ?_⟩
  · rw [State.sendReply_tx, withChecksum_eq (by simp [discoverBody]) (by rw [discoverBody_sum])]
    simp [discoverBody, cmdByte_eq_ofNat]
  · rw [State.sendReply_tx, withChecksum_discoverBody]

/-- Settles O22: the row sends the Type body of the entry of `a`, with the checksum of its sum. -/
theorem typeReplyBytes : Obligations.TypeReplyBytes := by
  intro s a k hstate hsub haddr hk
  have hpend := (pendingIs_iff s Config.subType a).2 ⟨hstate, hsub, haddr⟩
  refine ⟨_, _, exec_replyType hpend hk, rfl, ?_⟩
  rw [State.sendReply_tx, withChecksum_eq (by simp [typeBody]) (by rw [typeBody_sum])]
  simp [typeBody, cmdByte_eq_ofNat]

/-- Settles O23: the row sends the Value body of the entry of `a`, low byte first, with the checksum of its sum. -/
theorem valueReplyBytes : Obligations.ValueReplyBytes := by
  intro s a k hstate hsub haddr hk
  have hpend := (pendingIs_iff s Config.subValue a).2 ⟨hstate, hsub, haddr⟩
  refine ⟨_, _, _, exec_replyValue hpend hk, rfl, rfl, ?_⟩
  rw [State.sendReply_tx, withChecksum_eq (by simp [valueBody]) (by rw [valueBody_sum])]
  simp [valueBody, cmdByte_eq_ofNat, lo8_eq_ofNat, hi8_eq_ofNat]

/-- Settles O33: one branch of the command map for each clause, its condition turned from fields into numbers. -/
theorem decodeFollowsTheCommandMap : Obligations.DecodeFollowsTheCommandMap := by
  intro s len c
  refine ⟨?channels, ?poll, ?unrecognised⟩
  case channels =>
    rintro rfl
    exact decodeRx_channels s.registered len
  case poll =>
    rintro hc hlow hhigh rfl
    rw [← addrOf_eq_ofNat, ← subNibble_eq_ofNat]
    exact decodeRx_registered hc ((registered_addrOf_iff s c).2 ⟨hlow, hhigh⟩)
  case unrecognised =>
    intro hc hnot
    refine decodeRx_unrecognised hc fun ⟨hreg, hlen⟩ => hnot ?_
    obtain ⟨hlow, hhigh⟩ := (registered_addrOf_iff s c).1 hreg
    exact ⟨hlow, hhigh, hlen⟩

end Machine

end Sys2Proof
end

section
/-! The Frame Receiver (40_receiver_fsm.md): its tests and register updates as numbers, what each part answers in the state
it applies in; then the statements O9, O10, O11 and O12. -/

namespace Sys2Proof

/-! ### Tests and updates as numbers -/

/-- R46: the length bytes that start a frame. -/
theorem validLength_iff (b : Byte) : validLength b = true ↔ 4 ≤ b.toNat ∧ b.toNat ≤ 0x20 := by
  simp [validLength, Nat.succ_le_iff]

/-- R64: the seed never borrows, a byte being at most 0xFF. -/
theorem ckSeed_sub_eq_ofNat (b : Byte) : Config.ckSeed - b.setWidth 16 = BitVec.ofNat 16 (0xFFFF - b.toNat) := by
  have hb := b.isLt
  have hseed : Config.ckSeed.toNat = 0xFFFF := rfl
  apply BitVec.eq_of_toNat_eq
  simp only [BitVec.toNat_sub, BitVec.toNat_setWidth, BitVec.toNat_ofNat, hseed]
  omega

/-- R9, R65: subtraction in the running checksum is that of the integers, modulo 2^16. -/
theorem word_sub_byte_eq_ofInt (w : Word) (b : Byte) :
    w - b.setWidth 16 = BitVec.ofInt 16 ((w.toNat : Int) - (b.toNat : Int)) := by
  apply BitVec.eq_of_toNat_eq
  simp only [BitVec.toNat_sub, BitVec.toNat_setWidth, BitVec.toNat_ofInt]
  omega

/-- R13, R65: an advanced index that does not wrap equals the length exactly when the numbers do. -/
theorem index_succ_eq_iff {i n : BitVec 5} (hi : i.toNat + 1 < 32) : i + 1 = n ↔ i.toNat + 1 = n.toNat := by
  rw [← BitVec.toNat_inj, BitVec.toNat_add_of_lt hi]
  rfl

namespace Machine

/-! ### What each part answers where it applies -/

/-- R64, C9: a valid length leaves at least one payload byte, so the branch to AwaitChecksumLow is not taken. -/
theorem exec_rxLen_valid {s : State} {b : Byte} (hs : s.state = .awaitLength) (hb : validLength b = true) :
    exec (.rxLen b) s = .next
      { s with frameLen := BitVec.ofNat 5 (b.toNat - Config.overhead), cksumRun := Config.ckSeed - b.setWidth 16,
               payloadIdx := 0, state := .collectPayload } := by
  have hpayload : b.toNat - Config.overhead ≠ 0 := by
    have hmin := ((validLength_iff b).1 hb).1
    simp only [Config.overhead]
    omega
  simp only [exec, execRxLen, if_pos hs, if_pos hb, if_neg hpayload]

theorem exec_rxLen_invalid {s : State} {b : Byte} (hs : s.state = .awaitLength) (hb : ¬ validLength b = true) :
    exec (.rxLen b) s = .next (s.raiseToIdle .framingError) := by
  simp only [exec, execRxLen, if_pos hs, if_neg hb]

theorem exec_rxData {s : State} (b : Byte) (hs : s.state = .collectPayload)
    (hidx : s.payloadIdx.toNat < Config.maxPayload) :
    exec (.rxData b) s = .next
      { s with payload := s.payload.set s.payloadIdx.toNat b hidx, cksumRun := s.cksumRun - b.setWidth 16,
               payloadIdx := s.payloadIdx + 1,
               state := if s.payloadIdx + 1 = s.frameLen then .awaitChecksumLow else .collectPayload } := by
  simp only [exec, execRxData, if_pos hs, dif_pos hidx]

theorem exec_rxCkl {s : State} (b : Byte) (hs : s.state = .awaitChecksumLow) :
    exec (.rxCkl b) s = .next { s with cksumLo := b, state := .awaitChecksumHigh } := by
  simp only [exec, execRxCkl, if_pos hs]

theorem exec_rxCkh_mismatch {s : State} {b : Byte} (hs : s.state = .awaitChecksumHigh)
    (hck : ¬ s.checksumMatches b = true) : exec (.rxCkh b) s = .next (s.raiseToIdle .checksumMismatch) := by
  simp only [exec, execRxCkh, if_pos hs, if_neg hck]

/-- R67, R73: a matching frame goes to DISPATCH in the same step. -/
theorem exec_rxCkh_match {s : State} {b : Byte} (hs : s.state = .awaitChecksumHigh)
    (hck : s.checksumMatches b = true) : exec (.rxCkh b) s = exec .dispatch s := by
  simp only [exec, execRxCkh, if_pos hs, if_pos hck]

/-! ### The statements -/

/-- Settles O9: the two ranges are the two answers of the test of R46. -/
theorem lengthByteIsRecordedOrDropped : Obligations.LengthByteIsRecordedOrDropped := by
  intro s b hs
  refine ⟨?recorded, ?dropped⟩
  case recorded =>
    intro hrange
    rw [exec_rxLen_valid hs ((validLength_iff b).2 hrange), ckSeed_sub_eq_ofNat]
  case dropped =>
    intro hrange
    have hinvalid : ¬ validLength b = true := by
      rw [validLength_iff]
      omega
    exact exec_rxLen_invalid hs hinvalid

/-- Settles O10: with room in the buffer the index does not wrap, so it meets the length as a number. -/
theorem payloadByteIsStored : Obligations.PayloadByteIsStored := by
  intro s b hidx hs
  have hnext : s.payloadIdx + 1 = BitVec.ofNat 5 (s.payloadIdx.toNat + 1) := by
    rw [BitVec.ofNat_add, BitVec.ofNat_toNat, BitVec.setWidth_eq]
    rfl
  have hnowrap : s.payloadIdx.toNat + 1 < 32 := by omega
  simp only [exec_rxData b hs hidx, word_sub_byte_eq_ofInt, index_succ_eq_iff hnowrap]
  rw [hnext]

/-- Settles O11: the part of AwaitChecksumLow has no other branch. -/
theorem lowChecksumByteIsHeld : Obligations.LowChecksumByteIsHeld :=
  fun _ b hs => exec_rxCkl b hs

/-- Settles O12: the two clauses are the two answers of the 16-bit comparison; DISPATCH completes at the last byte. -/
theorem highChecksumByteGivesTheVerdict : Obligations.HighChecksumByteGivesTheVerdict := by
  intro s b hs
  refine ⟨?mismatch, ?verdict⟩
  case mismatch =>
    intro hne
    exact exec_rxCkh_mismatch hs fun hck => hne ((checksumMatches_iff s b).1 hck)
  case verdict =>
    intro heq
    obtain ⟨t, hdispatch⟩ := execDispatch_completes s hs
    refine ⟨t, ?_, hdispatch⟩
    rw [exec_rxCkh_match hs ((checksumMatches_iff s b).2 heq)]
    exact hdispatch

end Machine

end Sys2Proof
end

section
/-! The frame commands (41_frame_commands.md): the fields of a command byte as numbers, the length guard of the command map,
what DISPATCH and the rows it selects answer under each test; then the statements O14 and O19. -/

namespace Sys2Proof

/-! ### Fields as numbers -/

theorem addrOf_eq_ofNat_mod (c : Byte) : addrOf c = BitVec.ofNat 4 (c.toNat % 16) := by
  rw [← addrOf_toNat, BitVec.ofNat_toNat, BitVec.setWidth_eq]

theorem subOf_eq_ofNat (c : Byte) : subOf c = BitVec.ofNat 8 (c.toNat / 16 * 16) := by
  rw [← subOf_toNat, BitVec.ofNat_toNat, BitVec.setWidth_eq]

/-- R50: only the sub-command 0x40 in place makes the channel command, the address staying in the low nibble. -/
theorem cmdByte_ne_cmdChannels {sub : Byte} (hlow : addrOf sub = 0) (hsub : sub ≠ Config.cmdChannels) (a : Nibble) :
    cmdByte sub a ≠ Config.cmdChannels := by
  have hmod : sub.toNat % 16 = 0 := by rw [← addrOf_toNat, hlow]; rfl
  have hchannels : Config.cmdChannels.toNat = 0x40 := rfl
  have ha := a.isLt
  rw [ne_eq, ← BitVec.toNat_inj, hchannels] at hsub ⊢
  rw [cmdByte_toNat hlow]
  omega

/-! ### The length guard of the command map (R78) -/

/-- R78: the guard alone rejects a frame of another length, whatever its command asks for and whatever is registered. -/
theorem decodeRx_of_length_ne_poll (reg : Nibble → Bool) {len c : Byte} (hc : c ≠ Config.cmdChannels)
    (hlen : len ≠ Config.lenPoll) : decodeRx reg (headerOf len c) = .unrecognised len c :=
  decodeRx_unrecognised hc fun ⟨_, hpoll⟩ => hlen hpoll

/-- R78: the echo of a six-byte reply is dropped by its length. -/
theorem decodeRx_sixByteReply (reg : Nibble → Bool) {sub : Byte} (hlow : addrOf sub = 0) (hsub : sub ≠ Config.cmdChannels)
    (a : Nibble) :
    decodeRx reg (headerOf 0x06 (cmdByte sub a)) = .unrecognised 0x06 (lo8 (headerOf 0x06 (cmdByte sub a))) := by
  rw [lo8_headerOf]
  exact decodeRx_of_length_ne_poll reg (cmdByte_ne_cmdChannels hlow hsub a) (by decide)

/-- R51, R78: a Discover reply has the header of the poll it answers. -/
theorem decodeRx_discoverReply {reg : Nibble → Bool} {a : Nibble} (hr : reg a = true) :
    decodeRx reg (headerOf Config.lenDiscoverReply (cmdByte Config.subDiscover a)) = .pollDiscover a := by
  have hc := cmdByte_ne_cmdChannels (sub := Config.subDiscover) (by decide) (by decide) a
  rw [subDiscover_inPlace] at hc ⊢
  exact Laws.decodeRx_poll reg 0x8 a hr hc

namespace Machine

/-! ### What the rows of DISPATCH answer where they apply -/

theorem exec_channels {s : State} {len : Byte} (h : s.atFrame len Config.cmdChannels = true) :
    exec (.channels len) s = .next s.takeChannels := by
  simp only [exec, execChannels, if_pos h]

theorem exec_unrecognised {s : State} {len cmd : Byte} (h : s.atFrame len cmd = true) (hc : s.isChannelFrame = false)
    (hp : s.isSensorPoll = false) : exec (.unrecognised len cmd) s = .next (s.raiseToIdle s.unrecognisedName) := by
  simp [exec, execUnrecognised, h, hc, hp]

/-! ### What DISPATCH answers under each test -/

/-- R73: the poll test is made after the channel test, so the two never hold together. -/
theorem isChannelFrame_eq_false_of_isSensorPoll {s : State} (hp : s.isSensorPoll = true) : s.isChannelFrame = false := by
  obtain ⟨hc, _, _⟩ := (isSensorPoll_iff s).1 hp
  rw [← Bool.not_eq_true, isChannelFrame_iff]
  exact hc

/-- R78: the length guard of the poll test. -/
theorem frameLen_of_isSensorPoll {s : State} (hp : s.isSensorPoll = true) : s.frameLen.toNat = 1 :=
  ((isSensorPoll_iff s).1 hp).2.2

theorem exec_dispatch_channels {s : State} (hs : s.state = .awaitChecksumHigh) (hc : s.isChannelFrame = true) :
    exec .dispatch s = .next s.takeChannels := by
  obtain ⟨_, hrun⟩ | ⟨hp, _⟩ | ⟨hnc, _, _⟩ := execDispatch_cases s hs
  · exact hrun
  · simp [isChannelFrame_eq_false_of_isSensorPoll hp] at hc
  · simp [hnc] at hc

theorem exec_dispatch_poll {s : State} (hs : s.state = .awaitChecksumHigh) (hp : s.isSensorPoll = true) :
    exec .dispatch s = .next (s.poll (addrOf s.command) (subOf s.command)) := by
  obtain ⟨hc, _⟩ | ⟨_, hrun⟩ | ⟨_, hnp, _⟩ := execDispatch_cases s hs
  · simp [isChannelFrame_eq_false_of_isSensorPoll hp] at hc
  · exact hrun
  · simp [hnp] at hp

theorem exec_dispatch_unrecognised {s : State} (hs : s.state = .awaitChecksumHigh) (hc : s.isChannelFrame = false)
    (hp : s.isSensorPoll = false) : exec .dispatch s = .next (s.raiseToIdle s.unrecognisedName) := by
  obtain ⟨hchannel, _⟩ | ⟨hpoll, _⟩ | ⟨_, _, hrun⟩ := execDispatch_cases s hs
  · simp [hc] at hchannel
  · simp [hp] at hpoll
  · exact hrun

/-- R78: what is left for DISPATCH where the poll test fails. -/
theorem exec_dispatch_of_not_poll {s t : State} (hs : s.state = .awaitChecksumHigh) (hp : s.isSensorPoll = false)
    (hrun : exec .dispatch s = .next t) : t = s.takeChannels ∨ t = s.raiseToIdle s.unrecognisedName := by
  cases hc : s.isChannelFrame with
  | true =>
    rw [exec_dispatch_channels hs hc] at hrun
    exact .inl (Host.Outcome.next.inj hrun).symm
  | false =>
    rw [exec_dispatch_unrecognised hs hc hp] at hrun
    exact .inr (Host.Outcome.next.inj hrun).symm

/-! ### The statements -/

/-- Settles O14: the three clauses are the three answers of the channel test and then the poll test, and the row named by each
clause applies to the frame DISPATCH reads. -/
theorem dispatchTakesTheFirstTestThatHolds : Obligations.DispatchTakesTheFirstTestThatHolds := by
  intro s hs
  refine ⟨?channels, ?poll, ?unrecognised⟩
  case channels =>
    intro hcmd
    have hframe : s.atFrame s.lengthByte Config.cmdChannels = true := (atFrame_iff _ _ _).2 ⟨hs, rfl, hcmd⟩
    exact ⟨_, exec_dispatch_channels hs ((isChannelFrame_iff s).2 hcmd), exec_channels hframe⟩
  case poll =>
    intro hcmd hlow hhigh hlen
    have hpoll := (isSensorPoll_iff s).2 ⟨hcmd, ⟨hlow, hhigh⟩, hlen⟩
    rw [exec_dispatch_poll hs hpoll, addrOf_eq_ofNat_mod, subOf_eq_ofNat, State.command]
  case unrecognised =>
    intro hcmd hnot
    have hchannel : s.isChannelFrame = false := by
      rw [← Bool.not_eq_true, isChannelFrame_iff]
      exact hcmd
    have hpoll : s.isSensorPoll = false := by
      rw [← Bool.not_eq_true, isSensorPoll_iff]
      exact fun ⟨_, ⟨hlow, hhigh⟩, hlen⟩ => hnot ⟨hlow, hhigh, hlen⟩
    have hframe : s.atFrame s.lengthByte s.payload[0] = true := (atFrame_iff _ _ _).2 ⟨hs, rfl, rfl⟩
    exact ⟨_, exec_dispatch_unrecognised hs hchannel hpoll, exec_unrecognised hframe hchannel hpoll⟩

/-- Settles O19: another length fails the poll test, and neither update left to DISPATCH starts a response; the replies read
as received frames are branches of the command map. -/
theorem onlyLengthFourFramesArePolls : Obligations.OnlyLengthFourFramesArePolls := by
  refine ⟨?guard, ?echoes⟩
  case guard =>
    intro s t hs hlen hrun
    have hpoll : s.isSensorPoll = false := by
      rw [← Bool.not_eq_true]
      intro hp
      have := frameLen_of_isSensorPoll hp
      omega
    obtain rfl | rfl := exec_dispatch_of_not_poll hs hpoll hrun
    · exact ⟨rfl, rfl, rfl, rfl, rfl⟩
    · exact ⟨rfl, rfl, rfl, rfl, rfl⟩
  case echoes =>
    intro reg a h
    refine ⟨?type, ?value, ?discover⟩
    case type =>
      rintro ⟨⟩
      exact decodeRx_sixByteReply reg (by decide) (by decide) a
    case value =>
      rintro ⟨⟩
      exact decodeRx_sixByteReply reg (by decide) (by decide) a
    case discover =>
      rintro ⟨⟩ hr
      exact decodeRx_discoverReply hr

end Machine

end Sys2Proof
end

section
/-! The Telemetry Responder (42_telemetry_responder.md): what REPLY.CANCEL answers where it applies, and its update field by
field; then the statement O24. -/

namespace Sys2Proof.Machine

/-- R85: with a response pending, none of the three replies asked for, the row labels the step and ends the response. -/
theorem exec_replyCancel {s : State} (hs : s.state = .respondPending) (hdiscover : s.pendSub ≠ Config.subDiscover)
    (htype : s.pendSub ≠ Config.subType) (hvalue : s.pendSub ≠ Config.subValue) :
    exec .replyCancel s = .next (s.label .unknownCommand).finishResponse := by
  exact if_pos ⟨hs, hdiscover, htype, hvalue⟩

/-- R87, R100: ending a labelled response writes the pending registers, the FSM state and the label, and nothing else. -/
theorem label_finishResponse_eq (s : State) (e : ErrorName) :
    (s.label e).finishResponse =
      { s with pendAddr := 0, pendSub := 0, state := .idle, errors := s.errors ++ [e] } := rfl

/-- Settles O24: the row applies, and its one update writes no transmitted byte, counter or event. -/
theorem cancelSendsNothing : Obligations.CancelSendsNothing := by
  intro s hs hdiscover htype hvalue
  rw [exec_replyCancel hs hdiscover htype hvalue, label_finishResponse_eq]

end Sys2Proof.Machine
end

section
/-! The error conditions (60_exceptions.md): what ADD_SENSOR answers with the registry full, and its update field by field;
then the statement O27. -/

namespace Sys2Proof.Machine

/-- R105: with no room left, ADD_SENSOR labels the step and answers the size of the registry. -/
theorem exec_addSensor_full {s : State} (h : Config.maxSensors ≤ s.sensorCount.toNat) (x : Byte) :
    exec (.addSensor x) s = .next ((s.label .registryFull).answer (.address (BitVec.ofNat 4 Config.maxSensors))) := by
  exact dif_neg (Nat.not_lt.2 h)

/-- R27, R100: an answer to a labelled call writes the result and the label, and nothing else. -/
theorem label_answer_eq (s : State) (e : ErrorName) (r : HostResult) :
    (s.label e).answer r = { s with results := s.results ++ [r], errors := s.errors ++ [e] } := rfl

/-- Settles O27: ten sensors leave no room, and the update of a full registry writes no entry and no count. -/
theorem fullRegistryIsUnchanged : Obligations.FullRegistryIsUnchanged := by
  intro s x hcount
  have hfull : Config.maxSensors ≤ s.sensorCount.toNat := hcount.ge
  have hten : BitVec.ofNat 4 Config.maxSensors = 10 := rfl
  rw [exec_addSensor_full hfull, label_answer_eq, hten]

end Sys2Proof.Machine
end

section
/-! Whole frames (30_encoding.md): what `parseFrame` answers for bytes cut as R45 says, the rows of the operation table as the
fields they test, and the encoder against the decoder; then the statements O30, O31, O32, O34, O39, O40 and O4. -/

namespace Sys2Proof

/-! ### Parsing bytes cut as R45 says -/

/-- R45, R47: with a valid length byte and as many bytes as it says, the checksum alone decides. -/
theorem parseFrame_eq {len cmd lo hi : Byte} {data : List Byte} (rest : List Byte) (hlen : len.toNat = data.length + 4)
    (hmax : len.toNat ≤ 32) :
    parseFrame (len :: cmd :: (data ++ lo :: hi :: rest)) =
      if le16 lo hi = checksum (len :: cmd :: data) then .ok ⟨headerOf len cmd, data, rest⟩ else .error .badChecksum := by
  have hvalid : validLength len = true := (validLength_iff len).2 ⟨by omega, hmax⟩
  have hcut : len.toNat - Config.overhead = data.length + 1 := by simp only [Config.overhead]; omega
  simp [parseFrame, hvalid, hcut]

/-- R72: the checksum test as one sum, the checksum being one word (C2). -/
theorem checksum_eq_iff_sum {body : List Byte} (hlen : body.length ≤ 257) (lo hi : Byte) :
    le16 lo hi = checksum body ↔ (body.map BitVec.toNat).sum + (hi.toNat * 256 + lo.toNat) = 0xFFFF := by
  have hsum := byte_sum_le body
  rw [← BitVec.toNat_inj, le16_toNat, checksum_toNat body (by omega)]
  omega

theorem parseFrame_withChecksum {len cmd : Byte} {data : List Byte} (rest : List Byte) (hlen : len.toNat = data.length + 4)
    (hmax : len.toNat ≤ 32) :
    parseFrame (withChecksum (len :: cmd :: data) ++ rest) = .ok ⟨headerOf len cmd, data, rest⟩ := by
  have hcut : withChecksum (len :: cmd :: data) ++ rest =
      len :: cmd :: (data ++ lo8 (checksum (len :: cmd :: data)) :: hi8 (checksum (len :: cmd :: data)) :: rest) := by
    simp [withChecksum]
  rw [hcut, parseFrame_eq rest hlen hmax, if_pos (le16_lo8_hi8 _)]

theorem parseFrame_encode {i : Instr} {d : Direction} {h : Word} {data bs : List Byte} (rest : List Byte)
    (hi : encodeHeader i = some (d, h)) (hrange : lengthInRange (hi8 h) = true) (hlen : (hi8 h).toNat = data.length + 4)
    (hbs : encode i data = some bs) : parseFrame (bs ++ rest) = .ok ⟨h, data, rest⟩ := by
  obtain rfl : withChecksum (hi8 h :: lo8 h :: data) = bs := by simpa [encode, hi] using hbs
  have hmax : (hi8 h).toNat ≤ 32 := by
    simp only [lengthInRange, Bool.and_eq_true, decide_eq_true_eq] at hrange
    exact hrange.2
  rw [parseFrame_withChecksum rest hlen hmax, headerOf_hi8_lo8]

/-- R96: what PerInstr.lean says of each constructor, for every operation. -/
theorem headerRoundTrip (i : Instr) : Laws.HeaderRoundTrip.Statement i := by
  cases i with
  | channels len => exact Laws.HeaderRoundTrip.channels len
  | pollDiscover a => exact Laws.HeaderRoundTrip.pollDiscover a
  | pollType a => exact Laws.HeaderRoundTrip.pollType a
  | pollValue a => exact Laws.HeaderRoundTrip.pollValue a
  | pollOther sub a => exact Laws.HeaderRoundTrip.pollOther sub a
  | unrecognised len cmd => exact Laws.HeaderRoundTrip.unrecognised len cmd
  | replyDiscover a => exact Laws.HeaderRoundTrip.replyDiscover a
  | replyType a => exact Laws.HeaderRoundTrip.replyType a
  | replyValue a => exact Laws.HeaderRoundTrip.replyValue a
  | _ => exact Laws.headerRoundTrip_of_none rfl

/-- Settles O30: the frame parses back to the header, and the header decodes back to the operation. -/
theorem decodeOfEncodeReceived : Obligations.DecodeOfEncodeReceived := by
  intro reg i h data bs rest hwf hi hlen hbs
  obtain ⟨hrange, hdecode⟩ := (headerRoundTrip i).1 reg h hwf hi
  simp only [decodeRxFrame, parseFrame_encode rest hi hrange hlen hbs, hdecode]

/-- Settles O31: as for received frames, with the reading of R51 to R53. -/
theorem decodeOfEncodeTransmitted : Obligations.DecodeOfEncodeTransmitted := by
  intro i h data bs rest hi hlen hbs
  obtain ⟨hrange, hdecode⟩ := (headerRoundTrip i).2 h hi
  simp only [decodeTxFrame, parseFrame_encode rest hi hrange hlen hbs, hdecode]

/-! ### The command map, branch by branch -/

/-- The conditions of R54 under which a header is a poll with command byte `c`. -/
def PollHeader (reg : Nibble → Bool) (len c : Byte) : Prop :=
  c ≠ Config.cmdChannels ∧ reg (addrOf c) = true ∧ len = Config.lenPoll

/-- Everything `decodeRx` can answer: the test of R54 that decided, and the operation. -/
theorem decodeRx_cases (reg : Nibble → Bool) (len c : Byte) :
    (c = Config.cmdChannels ∧ decodeRx reg (headerOf len c) = .channels len) ∨
    (PollHeader reg len c ∧ subOf c = Config.subDiscover ∧ decodeRx reg (headerOf len c) = .pollDiscover (addrOf c)) ∨
    (PollHeader reg len c ∧ subOf c = Config.subType ∧ decodeRx reg (headerOf len c) = .pollType (addrOf c)) ∨
    (PollHeader reg len c ∧ subOf c = Config.subValue ∧ decodeRx reg (headerOf len c) = .pollValue (addrOf c)) ∨
    (PollHeader reg len c ∧ subOf c ≠ Config.subDiscover ∧ subOf c ≠ Config.subType ∧ subOf c ≠ Config.subValue ∧
      decodeRx reg (headerOf len c) = .pollOther (subNibble c) (addrOf c)) ∨
    (c ≠ Config.cmdChannels ∧ ¬ (reg (addrOf c) = true ∧ len = Config.lenPoll) ∧
      decodeRx reg (headerOf len c) = .unrecognised len c) := by
  by_cases hc : c = Config.cmdChannels
  · subst hc
    exact .inl ⟨rfl, decodeRx_channels reg len⟩
  by_cases hp : reg (addrOf c) = true ∧ len = Config.lenPoll
  · have hpoll : PollHeader reg len c := ⟨hc, hp⟩
    have hguard : (reg (addrOf c) && len == Config.lenPoll) = true := by simpa using hp
    simp only [decodeRx, lo8_headerOf, hi8_headerOf, if_pos hguard, hpoll, hc, true_and, false_and, false_or]
    split_ifs <;> simp_all
  · exact .inr (.inr (.inr (.inr (.inr ⟨hc, hp, decodeRx_unrecognised hc hp⟩))))

theorem subNibble_append_zero : ∀ c : Byte, subNibble c ++ (0 : Nibble) = subOf c := by decide

theorem subNibble_append_addrOf : ∀ c : Byte, subNibble c ++ addrOf c = c := by decide

/-- R96: no header bit is lost by the command map. -/
theorem encodeHeader_decodeRx (reg : Nibble → Bool) (h : Word) : encodeHeader (decodeRx reg h) = some (.rx, h) := by
  rw [← headerOf_hi8_lo8 h]
  generalize hi8 h = len, lo8 h = c
  have hcmd := cmdByte_subOf_addrOf c
  obtain ⟨rfl, e⟩ | ⟨⟨_, _, rfl⟩, hs, e⟩ | ⟨⟨_, _, rfl⟩, hs, e⟩ | ⟨⟨_, _, rfl⟩, hs, e⟩ | ⟨⟨_, _, rfl⟩, _, _, _, e⟩ |
    ⟨_, _, e⟩ := decodeRx_cases reg len c <;> rw [e, encodeHeader]
  · rw [← hs, hcmd]
  · rw [← hs, hcmd]
  · rw [← hs, hcmd]
  · rw [subInPlace_subNibble, hcmd]

/-- R54: what a header with a valid length byte decodes to is well-formed for the registry it was decoded with. -/
theorem decodeRx_wfFor {reg : Nibble → Bool} {h : Word} (hlen : lengthInRange (hi8 h) = true) :
    (decodeRx reg h).wfFor reg = true := by
  rw [← headerOf_hi8_lo8 h]
  revert hlen
  generalize hi8 h = len, lo8 h = c
  intro hlen
  obtain ⟨_, e⟩ | ⟨⟨_, hr, _⟩, _, e⟩ | ⟨⟨_, hr, _⟩, _, e⟩ | ⟨⟨_, hr, _⟩, _, e⟩ | ⟨⟨hc, hr, _⟩, h8, h9, hA, e⟩ |
    ⟨hc, hp, e⟩ := decodeRx_cases reg len c <;> rw [e]
  · simpa [Instr.wfFor, Instr.wf] using hlen
  · simpa [Instr.wfFor, Instr.wf] using hr
  · simpa [Instr.wfFor, Instr.wf] using hr
  · simpa [Instr.wfFor, Instr.wf] using hr
  · simp only [Instr.wfFor, Instr.wf, subNibble_append_zero, subNibble_append_addrOf, Bool.and_eq_true, bne_iff_ne]
    exact ⟨⟨⟨⟨h8, h9⟩, hA⟩, hc⟩, hr⟩
  · have hreg : len = Config.lenPoll → reg (addrOf c) = false := fun hl => by simpa [hl] using hp
    simp only [Instr.wfFor, Instr.wf, hlen, Bool.and_eq_true, bne_iff_ne, Bool.or_eq_true, Bool.not_eq_true']
    exact ⟨⟨trivial, hc⟩, Classical.or_iff_not_imp_left.2 fun hl => hreg (not_not.1 hl)⟩

/-- Settles O32: the bytes of a frame are its header, its data and the one checksum that `parseFrame` accepts. -/
theorem encodeOfDecodeReceived : Obligations.EncodeOfDecodeReceived := by
  intro reg bs data rest i hdec
  unfold decodeRxFrame at hdec
  split at hdec
  next p hp =>
    obtain ⟨len, cmd, lo, hi, hvalid, hlen, hhdr, hck, hbs⟩ := parseFrame_ok hp
    obtain ⟨rfl, rfl, rfl⟩ : decodeRx reg p.hdr = i ∧ p.data = data ∧ p.rest = rest := by simpa using hdec
    have hrange : lengthInRange (hi8 p.hdr) = true := by
      rw [hhdr, hi8_headerOf]
      simpa [lengthInRange] using (validLength_iff len).1 hvalid
    refine ⟨decodeRx_wfFor hrange, _, by rw [encode, encodeHeader_decodeRx]; rfl, ?_⟩
    simp [hhdr, hbs, withChecksum, ← hck]
  next => cases hdec

/-! ### The rows of the operation table (R96) -/

theorem headerOf_eq_append (len c : Byte) : headerOf len c = len ++ c := by
  apply BitVec.eq_of_toNat_eq
  have hc := c.isLt
  rw [headerOf, le16_toNat, BitVec.toNat_append, ← Nat.shiftLeft_add_eq_or_of_lt hc, Nat.shiftLeft_eq]

theorem headerOf_inj {len c len' c' : Byte} : headerOf len c = headerOf len' c' ↔ len = len' ∧ c = c' := by
  refine ⟨fun e => ⟨?_, ?_⟩, by rintro ⟨rfl, rfl⟩; rfl⟩
  · simpa using congrArg hi8 e
  · simpa using congrArg lo8 e

/-- A mask on a header masks its two bytes. -/
theorem headerOf_and (len c m n : Byte) : headerOf len c &&& headerOf m n = headerOf (len &&& m) (c &&& n) := by
  simp only [headerOf_eq_append]
  exact BitVec.and_append

/-- R96: what a row of the table tests of the two header bytes. -/
theorem applies_iff (reg : Nibble → Bool) (len c m n p q : Byte) (name : String) (needs : Bool) :
    RxRow.applies reg (headerOf len c) ⟨name, headerOf m n, headerOf p q, needs⟩ = true ↔
      (len &&& m = p ∧ c &&& n = q) ∧ (needs = true → reg (addrOf c) = true) := by
  rw [RxRow.applies, lo8_headerOf, headerOf_and, Bool.and_eq_true, beq_iff_eq, headerOf_inj]
  cases needs <;> simp

/-- The masks and patterns of the rows, each cut into the byte for the length and the byte for the command. -/
theorem rxRows_eq : rxRows = [⟨"CHANNELS", headerOf 0x00 0xFF, headerOf 0x00 Config.cmdChannels, false⟩,
   ⟨"POLL.DISCOVER", headerOf 0xFF 0xF0, headerOf Config.lenPoll Config.subDiscover, true⟩,
   ⟨"POLL.TYPE", headerOf 0xFF 0xF0, headerOf Config.lenPoll Config.subType, true⟩,
   ⟨"POLL.VALUE", headerOf 0xFF 0xF0, headerOf Config.lenPoll Config.subValue, true⟩,
   ⟨"POLL.OTHER", headerOf 0xFF 0x00, headerOf Config.lenPoll 0x00, true⟩,
   ⟨"UNRECOGNISED", headerOf 0x00 0x00, headerOf 0x00 0x00, false⟩] := by decide

theorem find?_cons_eq_ite {α : Type} (p : α → Bool) (a : α) (as : List α) :
    (a :: as).find? p = if p a = true then some a else as.find? p := by
  cases h : p a <;> simp [h]

/-- R96: the walk as a chain of tests on the two header bytes. -/
theorem walkRxRows_eq (reg : Nibble → Bool) (len c : Byte) :
    walkRxRows reg (headerOf len c) = some (
      if c = Config.cmdChannels then "CHANNELS"
      else if (len = Config.lenPoll ∧ subOf c = Config.subDiscover) ∧ reg (addrOf c) = true then "POLL.DISCOVER"
      else if (len = Config.lenPoll ∧ subOf c = Config.subType) ∧ reg (addrOf c) = true then "POLL.TYPE"
      else if (len = Config.lenPoll ∧ subOf c = Config.subValue) ∧ reg (addrOf c) = true then "POLL.VALUE"
      else if len = Config.lenPoll ∧ reg (addrOf c) = true then "POLL.OTHER"
      else "UNRECOGNISED") := by
  have hzero (b : Byte) : b &&& 0x00 = 0x00 := BitVec.and_zero
  have hones (b : Byte) : b &&& 0xFF = b := BitVec.and_allOnes
  have hsub (q : Byte) : c &&& 0xF0 = q ↔ subOf c = q := Iff.rfl
  simp only [walkRxRows, rxRows_eq, find?_cons_eq_ite, applies_iff, hzero, hones, hsub, apply_ite (Option.map RxRow.mnemonic)]
  simp [apply_ite some]

/-- Settles O34: each answer of the command map makes its own row's tests true and those of the rows before it false. -/
theorem tableWalkAgreesWithTheCommandMap : Obligations.TableWalkAgreesWithTheCommandMap := by
  intro reg h
  rw [← headerOf_hi8_lo8 h]
  generalize hi8 h = len, lo8 h = c
  rw [walkRxRows_eq]
  obtain ⟨hc, e⟩ | ⟨⟨hc, hr, hl⟩, hs, e⟩ | ⟨⟨hc, hr, hl⟩, hs, e⟩ | ⟨⟨hc, hr, hl⟩, hs, e⟩ |
    ⟨⟨hc, hr, hl⟩, h8, h9, hA, e⟩ | ⟨hc, hp, e⟩ := decodeRx_cases reg len c <;> rw [e]
  · rw [if_pos hc]
  · rw [if_neg hc]
    simp [hr, hl, hs]
  · rw [if_neg hc]
    simp [hr, hl, hs]
  · rw [if_neg hc]
    simp [hr, hl, hs]
  · rw [if_neg hc, if_neg (fun h => h8 h.1.2), if_neg (fun h => h9 h.1.2), if_neg (fun h => hA h.1.2), if_pos ⟨hl, hr⟩]
  · rw [if_neg hc, if_neg (fun h => hp ⟨h.2, h.1.1⟩), if_neg (fun h => hp ⟨h.2, h.1.1⟩), if_neg (fun h => hp ⟨h.2, h.1.1⟩),
      if_neg (fun h => hp h.symm)]
/-! ### The sum of a frame (R72) -/

/-- Settles O39: R70 to R72 as one sum. -/
theorem acceptedIffTheSumIsFFFF : Obligations.AcceptedIffTheSumIsFFFF := by
  intro len cmd lo hi data rest hlen hmax
  have hbody : (len :: cmd :: data).length ≤ 257 := by simp; omega
  have hsum : ((len :: cmd :: data).map BitVec.toNat).sum = len.toNat + Machine.byteSum (cmd :: data) := rfl
  rw [parseFrame_eq rest hlen hmax, ← hsum, ← checksum_eq_iff_sum hbody]
  split_ifs with hck <;> simp [hck]

/-- R72: any other sum is a bad checksum. -/
theorem parseFrame_badChecksum {len lo hi : Byte} {payload : List Byte} (rest : List Byte) (hmin : payload ≠ [])
    (hlen : len.toNat = payload.length + 3) (hmax : len.toNat ≤ 32)
    (hsum : len.toNat + Machine.byteSum payload + (hi.toNat * 256 + lo.toNat) ≠ 0xFFFF) :
    parseFrame (len :: (payload ++ lo :: hi :: rest)) = .error .badChecksum := by
  obtain ⟨cmd, data, rfl⟩ := List.exists_cons_of_ne_nil hmin
  have hbody : (len :: cmd :: data).length ≤ 257 := by simp only [List.length_cons] at hlen ⊢; omega
  rw [List.cons_append, parseFrame_eq rest hlen hmax, if_neg]
  exact fun hck => hsum ((checksum_eq_iff_sum hbody lo hi).1 hck)

/-- Replacing one byte by another changes the sum. -/
theorem byteSum_set_ne {bs : List Byte} {j : Nat} {b : Byte} (hj : j < bs.length) (hb : b ≠ bs[j]) :
    Machine.byteSum (bs.set j b) ≠ Machine.byteSum bs := by
  have hne : b.toNat ≠ bs[j].toNat := fun e => hb (BitVec.eq_of_toNat_eq e)
  induction bs generalizing j with
  | nil => simp at hj
  | cons a as ih =>
    cases j with
    | zero => simpa [Machine.byteSum] using hne
    | succ j => simpa [Machine.byteSum] using ih (by simpa using hj) hb hne

/-- R72(a): a byte of the payload has weight 1 in the sum, the low checksum byte 1 and the high one 256, so changing one of
them alone takes the sum away from 0xFFFF. -/
theorem parseFrame_set_badChecksum {len lo hi b : Byte} {payload : List Byte} {k : Nat} (hmin : payload ≠ [])
    (hlen : len.toNat = payload.length + 3) (hmax : len.toNat ≤ 32)
    (hsum : len.toNat + Machine.byteSum payload + (hi.toNat * 256 + lo.toNat) = 0xFFFF)
    (hk : k < (payload ++ [lo, hi]).length) (hb : b ≠ (payload ++ [lo, hi])[k]) :
    parseFrame (len :: (payload ++ [lo, hi]).set k b) = .error .badChecksum := by
  obtain hpay | rfl | rfl : k < payload.length ∨ k = payload.length ∨ k = payload.length + 1 := by
    simp only [List.length_append, List.length_cons, List.length_nil] at hk
    omega
  · rw [List.getElem_append_left hpay] at hb
    have hdiff := byteSum_set_ne hpay hb
    rw [List.set_append_left _ _ hpay]
    exact parseFrame_badChecksum [] (by simpa using hmin) (by simpa using hlen) hmax (by omega)
  · have hdiff : b.toNat ≠ lo.toNat := fun e => hb (by simpa using BitVec.eq_of_toNat_eq e)
    have hset : (payload ++ [lo, hi]).set payload.length b = payload ++ [b, hi] := by simp
    rw [hset]
    exact parseFrame_badChecksum [] hmin hlen hmax (by omega)
  · have hdiff : b.toNat ≠ hi.toNat := fun e => hb (by simpa using BitVec.eq_of_toNat_eq e)
    have hset : (payload ++ [lo, hi]).set (payload.length + 1) b = payload ++ [lo, b] := by
      simp [List.set_append_right]
    rw [hset]
    exact parseFrame_badChecksum [] hmin hlen hmax (by omega)

/-- Settles O40: every position but the first lies in the payload or in the checksum bytes behind it. -/
theorem singleByteErrorsAreDetected : Obligations.SingleByteErrorsAreDetected := by
  rintro bs ⟨hdr, data, rest⟩ j b hp hrest hj hlt hb
  obtain ⟨len, cmd, lo, hi, hvalid, hlen, -, hck, rfl⟩ := parseFrame_ok hp
  obtain rfl : rest = [] := hrest
  obtain ⟨k, rfl⟩ : ∃ k, j = k + 1 := ⟨j - 1, by omega⟩
  have hmax : len.toNat ≤ 32 := ((validLength_iff len).1 hvalid).2
  have hbody : (len :: cmd :: data).length ≤ 257 := by simp only [List.length_cons] at hlen ⊢; omega
  exact parseFrame_set_badChecksum (payload := cmd :: data) (List.cons_ne_nil _ _) hlen hmax
    ((checksum_eq_iff_sum hbody lo hi).1 hck) (Nat.lt_of_succ_lt_succ hlt) hb

/-- Settles O4: the decoder evaluated on each of the nine frames. -/
theorem specFramesDecode : Obligations.SpecFramesDecode := ⟨rfl, rfl, rfl, rfl, rfl, rfl, rfl, rfl, rfl⟩

end Sys2Proof
end

section
/-! Reset, the step and the byte-steps (R29, R36, R60 to R68): which operation each move runs, and RXBYTE as the gap rule
followed by one part; then the statements O1, O2, O3, O5, O6, O7, O8 and O13. -/

namespace Sys2Proof.Machine

/-! ### What each move runs (R95) -/

theorem step_of_no_turns {s : State} (h : s.turns = []) : step s = .next s := by
  simp [step, fetch, h]

theorem step_host {s : State} {c : HostCall} {ts : List Turn} (h : s.turns = .host c :: ts) :
    step s = exec c.instr { s with turns := ts } := by
  simp [step, fetch, h]

theorem step_emit {s : State} {ts : List Turn} (h : s.turns = .driver :: ts) (hs : s.state = .respondPending) :
    step s = exec .emit { s with turns := ts } := by
  simp [step, fetch, h, hs]

theorem step_no_byte {s : State} {ts : List Turn} (h : s.turns = .driver :: ts) (hs : s.state ≠ .respondPending)
    (hr : s.rx = []) : step s = .next { s with turns := ts } := by
  simp [step, fetch, h, hs, hr]

theorem step_rxbyte {s : State} {ts : List Turn} {r : RxByte} {rs : List RxByte} (h : s.turns = .driver :: ts)
    (hs : s.state ≠ .respondPending) (hr : s.rx = r :: rs) :
    step s = exec (.rxbyte r.byte r.nowMs) { s with turns := ts, rx := rs } := by
  simp [step, fetch, h, hs, hr]

/-! ### RXBYTE and its parts -/

theorem exec_rxIdle {s : State} (b : Byte) (hs : s.state = .idle) : exec (.rxIdle b) s = .next s := by
  simp only [exec, execRxIdle, if_pos hs]
  rw [← hs]

theorem exec_rxGap {s : State} (now : Nat) (hs : s.state ≠ .respondPending) :
    exec (.rxGap now) s = .next (s.applyGap now) := by
  simp only [exec, execRxGap, if_neg hs]

theorem exec_rxbyte_pending {s : State} (b : Byte) (now : Nat) (hs : s.state = .respondPending) :
    exec (.rxbyte b now) s = .fault .stuckWhilePending := by
  simp only [exec, execRxbyte, if_pos hs]

/-- R60: the part the FSM state selects. -/
theorem byteStep_eq_exec {s : State} {b : Byte} {i : Instr} (hi : decodeByteStep s.state b = some i) :
    byteStep b s = exec i s := by
  unfold byteStep
  cases hs : s.state <;> rw [hs] at hi <;> cases hi <;> rfl

theorem exec_rxbyte {s : State} {b : Byte} {now : Nat} {i : Instr} (hs : s.state ≠ .respondPending)
    (hi : decodeByteStep (s.processedIn now) b = some i) : exec (.rxbyte b now) s = exec i (s.applyGap now) := by
  rw [← applyGap_state_processedIn] at hi
  simp only [exec, execRxbyte, if_neg hs, byteStep_eq_exec hi]

/-- R61: the gap rule never enters RespondPending, and leaves every other state for AwaitLength alone. -/
theorem processedIn_ne_respondPending {s : State} (now : Nat) (hs : s.state ≠ .respondPending) :
    s.processedIn now ≠ .respondPending := by
  unfold State.processedIn
  split
  · exact FsmState.noConfusion
  · exact hs

/-- R60: a part is selected in every state but RespondPending. -/
theorem decodeByteStep_of_not_pending {st : FsmState} (b : Byte) (h : st ≠ .respondPending) :
    ∃ i, decodeByteStep st b = some i := by
  cases st with
  | respondPending => exact absurd rfl h
  | _ => exact ⟨_, rfl⟩

/-- R60 to R67: RXBYTE completes where no response is pending and a payload byte has its place. -/
theorem exec_rxbyte_completes {s : State} (b : Byte) (now : Nat) (hs : s.state ≠ .respondPending)
    (hidx : s.processedIn now = .collectPayload → s.payloadIdx.toNat < Config.maxPayload) :
    ∃ t, exec (.rxbyte b now) s = .next t := by
  obtain ⟨i, hi⟩ := decodeByteStep_of_not_pending b (processedIn_ne_respondPending now hs)
  rw [exec_rxbyte hs hi]
  have hg := applyGap_state_processedIn s now
  cases hp : s.processedIn now with
  | idle =>
    rw [hp] at hi hg; cases hi
    exact ⟨_, exec_rxIdle b hg⟩
  | awaitLength =>
    rw [hp] at hi hg; cases hi
    by_cases hv : validLength b = true
    · exact ⟨_, exec_rxLen_valid hg hv⟩
    · exact ⟨_, exec_rxLen_invalid hg hv⟩
  | collectPayload =>
    rw [hp] at hi hg; cases hi
    exact ⟨_, exec_rxData b hg (hidx hp)⟩
  | awaitChecksumLow =>
    rw [hp] at hi hg; cases hi
    exact ⟨_, exec_rxCkl b hg⟩
  | awaitChecksumHigh =>
    rw [hp] at hi hg; cases hi
    by_cases hm : (s.applyGap now).checksumMatches b = true
    · rw [exec_rxCkh_match hg hm]
      exact execDispatch_completes _ hg
    · exact ⟨_, exec_rxCkh_mismatch hg hm⟩
  | respondPending => exact absurd hp (processedIn_ne_respondPending now hs)

/-! ### The statements -/

/-- Settles O1: the reset state written out. -/
theorem resetStateHoldsTheTable : Obligations.ResetStateHoldsTheTable := rfl

/-- Settles O2: RESET has one branch, and its update written out. -/
theorem resetSetsEveryRegister : Obligations.ResetSetsEveryRegister := fun _ => rfl

/-- Settles O3: one branch of R95 for each clause. -/
theorem stepRunsTheNextMove : Obligations.StepRunsTheNextMove := by
  intro s
  refine ⟨step_of_no_turns, fun ts => ⟨fun c h => step_host h, fun h => ⟨step_emit h, step_no_byte h, ?_⟩⟩⟩
  exact fun r rs hs hr => step_rxbyte h hs hr

/-- Settles O5: the modular difference of R61 is the true elapsed time `d`. -/
theorem gapRuleRestartsAtThreeMilliseconds : Obligations.GapRuleRestartsAtThreeMilliseconds := by
  intro s d hs _ hd
  have hgap : s.gapBefore ((s.lastMs + d) % 2 ^ s.cfg.timeW) = decide (3 ≤ d) := by
    rw [State.gapBefore, elapsed_add s.cfg s.lastMs d hd]
  rw [exec_rxGap _ hs, State.applyGap, hgap, Nat.mod_mod]
  simp only [decide_eq_true_eq]

/-- Settles O6: a part is selected in every state the gap rule can leave. -/
theorem rxbyteRunsTheSelectedPart : Obligations.RxbyteRunsTheSelectedPart := by
  intro s b now hs
  obtain ⟨i, hi⟩ := decodeByteStep_of_not_pending b (processedIn_ne_respondPending now hs)
  refine ⟨s.applyGap now, i, exec_rxGap now hs, ?_, exec_rxbyte hs hi⟩
  rw [applyGap_state_processedIn, hi]

/-- Settles O7: in each of the seven ways RXBYTE can end, the clauses that the state after the gap rule leaves free are the
registers that its part writes. -/
theorem rxbyteCompletes : Obligations.RxbyteCompletes := by
  intro s b now hs hidx
  obtain ⟨t, ht⟩ := exec_rxbyte_completes b now hs hidx
  refine ⟨t, ht, ?_⟩
  obtain ⟨-, g, rfl, hcases⟩ := execRxbyte_next ht
  have hgap := applyGap_state_processedIn s now
  simp only [hgap] at hcases
  obtain ⟨hp, rfl⟩ | ⟨hp, -, rfl⟩ | ⟨hp, -, rfl⟩ | ⟨hp, hi, rfl⟩ | ⟨hp, rfl⟩ | ⟨hp, -, rfl⟩ | ⟨hp, -, hrun⟩ := hcases
  · simp [hp, hgap, -State.applyGap_state]
  · simp [hp]
  · simp [hp]
  · have hstored (k : Fin 29) (hk : k.val ≠ s.payloadIdx.toNat) :
        (s.payload.set s.payloadIdx.toNat b hi)[k] = s.payload[k] := Vector.getElem_set_ne hi k.isLt hk.symm
    have hnext (c : Prop) [Decidable c] :
        (if c then FsmState.awaitChecksumLow else .collectPayload) ≠ .awaitLength := by split_ifs <;> decide
    exact ⟨rfl, hnext _, fun _ => rfl, fun _ h => absurd hp h, fun h => absurd hp h, hstored, fun _ => rfl,
      fun _ => ⟨rfl, rfl, rfl, rfl, rfl, rfl⟩, fun _ _ => rfl, rfl⟩
  · simp [hp]
  · simp [hp]
  · obtain ⟨_, e⟩ | ⟨_, e⟩ | ⟨_, _, e⟩ := execDispatch_cases (s.applyGap now) (hgap.trans hp) <;>
      (obtain rfl := Host.Outcome.next.inj (e.symm.trans hrun); simp [hp])

/-- Settles O8: the part of Idle has no other branch. -/
theorem idleDropsTheByte : Obligations.IdleDropsTheByte := fun _ b hs => exec_rxIdle b hs

/-- Settles O13: the first tests of RXBYTE and of EMIT. -/
theorem pendingDecidesWhoMayStep : Obligations.PendingDecidesWhoMayStep :=
  fun _ b now => ⟨exec_rxbyte_pending b now, fun hs => if_pos hs⟩

end Sys2Proof.Machine
end

section
/-! The rows a frame or a move selects (41_frame_commands.md, 42_telemetry_responder.md, 43_host_operations.md): DISPATCH
against the decoder, each poll row, EMIT and its outcomes, the host's calls; then the statements O15, O16, O17, O18, O20, O25,
O26, O28 and O29. -/

namespace Sys2Proof.Machine

/-! ### The frame commands -/

/-- R96: the length byte of a frame, from its number. -/
theorem lengthByte_eq {s : State} {len : Byte} (hlen : len.toNat = s.frameLen.toNat + 3) : s.lengthByte = len := by
  rw [← BitVec.toNat_inj, lengthByte_toNat, hlen]

theorem lengthByte_eq_lenPoll_iff (s : State) : s.lengthByte = Config.lenPoll ↔ s.frameLen.toNat = 1 := by
  have hpoll : Config.lenPoll.toNat = 4 := rfl
  rw [← BitVec.toNat_inj, lengthByte_toNat, hpoll]
  omega

/-- R54, R73: the decoder's condition for a poll is the machine's. -/
theorem pollHeader_iff_isSensorPoll (s : State) :
    PollHeader s.registered s.lengthByte s.command ↔ s.isSensorPoll = true := by
  rw [PollHeader, isSensorPoll_iff, registered_addrOf_iff, lengthByte_eq_lenPoll_iff]
  exact Iff.rfl

/-- R75: a poll row where it applies. -/
theorem pollRow_eq {s : State} {sub : Byte} {a : Nibble} (hs : s.state = .awaitChecksumHigh) (hp : s.isSensorPoll = true)
    (hc : s.command = cmdByte sub a) : pollRow sub a s = .next (s.poll a sub) := by
  have hlen : s.lengthByte = Config.lenPoll := (lengthByte_eq_lenPoll_iff s).2 (frameLen_of_isSensorPoll hp)
  have hframe : s.atFrame Config.lenPoll (cmdByte sub a) = true := (atFrame_iff _ _ _).2 ⟨hs, hlen, hc⟩
  simp only [pollRow, hframe, hp, Bool.and_self, if_true]

theorem exec_pollOther {s : State} {sub a : Nibble} (h8 : sub ≠ 0x8) (h9 : sub ≠ 0x9) (hA : sub ≠ 0xA) :
    exec (.pollOther sub a) s = pollRow (subInPlace sub) a s := by
  have hown : ¬ (subInPlace sub = Config.subDiscover ∨ subInPlace sub = Config.subType ∨ subInPlace sub = Config.subValue) := by
    rw [subInPlace_own_row]
    tauto
  simp only [exec, execPollOther, if_neg hown]

/-- R75: the sensor poll test, for a command byte put together from a sub-command and a registered address. -/
theorem isSensorPoll_of_cmdByte {s : State} {sub : Byte} {a : Nibble} (hlow : addrOf sub = 0) (hc : s.command = cmdByte sub a)
    (hlen : s.frameLen.toNat = 1) (ha : 1 ≤ a.toNat) (hreg : a.toNat ≤ s.sensorCount.toNat) : s.isSensorPoll = true := by
  have hmod : sub.toNat % 16 = 0 := by rw [← addrOf_toNat, hlow]; rfl
  have hnum : s.command.toNat % 16 = a.toNat := by
    have := a.isLt
    rw [hc, cmdByte_toNat hlow]
    omega
  have hchannels : s.command ≠ 0x40 := by
    intro h
    rw [h] at hnum
    exact absurd hnum (Nat.ne_of_lt ha)
  exact (isSensorPoll_iff s).2 ⟨hchannels, ⟨hnum.symm ▸ ha, hnum.symm ▸ hreg⟩, hlen⟩

/-- R75 with the command byte as a number: the whole update of a poll row. -/
theorem pollRow_of_number {s : State} {sub : Byte} {a : Nibble} (hlow : addrOf sub = 0) (hs : s.state = .awaitChecksumHigh)
    (hlen : s.frameLen.toNat = 1) (ha : 1 ≤ a.toNat) (hreg : a.toNat ≤ s.sensorCount.toNat)
    (hnum : s.payload[0].toNat = sub.toNat + a.toNat) :
    pollRow sub a s = .next
      { s with pendAddr := a, pendSub := sub, cntPoll := (s.cntPoll + 1) % 2 ^ s.cfg.cntW, state := .respondPending } := by
  have hc : s.command = cmdByte sub a := by
    rw [State.command, ← BitVec.toNat_inj, hnum, cmdByte_toNat hlow]
  exact pollRow_eq hs (isSensorPoll_of_cmdByte hlow hc hlen ha hreg) hc

theorem addrOf_subInPlace : ∀ sub : Nibble, addrOf (subInPlace sub) = 0 := by decide

theorem subInPlace_toNat : ∀ sub : Nibble, (subInPlace sub).toNat = 16 * sub.toNat := by decide

/-- R76, D18: a length-4 frame left to UNRECOGNISED has an unregistered address. -/
theorem unrecognisedName_eq {s : State} (hc : s.isChannelFrame = false) (hp : s.isSensorPoll = false) :
    s.unrecognisedName = if s.frameLen.toNat = 1 then .addressOutOfRange else .unknownCommand := by
  have hlen : s.pollLength = true ↔ s.frameLen.toNat = 1 := by
    rw [State.pollLength, beq_iff_eq, ← BitVec.toNat_inj]
    rfl
  by_cases h : s.frameLen.toNat = 1
  · have hreg : s.registered (addrOf s.command) = false := by
      simpa [State.isSensorPoll, hc, hlen.2 h] using hp
    simp [State.unrecognisedName, hlen.2 h, hreg, h]
  · have hlen' : s.pollLength = false := by rw [← Bool.not_eq_true, hlen]; exact h
    simp [State.unrecognisedName, hlen', h]

/-- R49, R74: a channel word as a number. -/
theorem channelWords_toNat (p : Vector Byte Config.maxPayload) (i : Fin Config.nChannels) :
    (channelWords p)[i].toNat =
      (p[2 + 2 * i.val]'(channelBytes_inside i)).toNat * 256 + (p[1 + 2 * i.val]'(channelLow_inside i)).toNat := by
  simp [channelWords, channelWord, le16_toNat]

/-- R54, R73: DISPATCH and the decoder choose by the same tests. -/
theorem exec_decodeRx_header {s : State} (hs : s.state = .awaitChecksumHigh) :
    exec (decodeRx s.registered (headerOf s.lengthByte s.command)) s = exec .dispatch s := by
  have hframe : s.atFrame s.lengthByte s.command = true := (atFrame_iff _ _ _).2 ⟨hs, rfl, rfl⟩
  have hpoll (hp : PollHeader s.registered s.lengthByte s.command) :
      pollRow (subOf s.command) (addrOf s.command) s = exec .dispatch s := by
    have hp' := (pollHeader_iff_isSensorPoll s).1 hp
    rw [pollRow_eq hs hp' (cmdByte_subOf_addrOf _).symm, exec_dispatch_poll hs hp']
  obtain ⟨hc, e⟩ | ⟨hp, hsub, e⟩ | ⟨hp, hsub, e⟩ | ⟨hp, hsub, e⟩ | ⟨hp, h8, h9, hA, e⟩ | ⟨hc, hp, e⟩ :=
    decodeRx_cases s.registered s.lengthByte s.command <;> rw [e]
  · rw [exec_dispatch_channels hs ((isChannelFrame_iff s).2 hc), exec_channels (hc ▸ hframe)]
  · rw [← hpoll hp, hsub]; rfl
  · rw [← hpoll hp, hsub]; rfl
  · rw [← hpoll hp, hsub]; rfl
  · have hne {n : Nibble} (h : subOf s.command ≠ subInPlace n) : subNibble s.command ≠ n := by
      rintro rfl
      exact h (subInPlace_subNibble _).symm
    rw [← hpoll hp, exec_pollOther (hne h8) (hne h9) (hne hA), subInPlace_subNibble]
  · have hchannel : s.isChannelFrame = false := by rw [← Bool.not_eq_true, isChannelFrame_iff]; exact hc
    have hnot : s.isSensorPoll = false := by
      rw [← Bool.not_eq_true, ← pollHeader_iff_isSensorPoll]
      exact fun ⟨_, hreg⟩ => hp hreg
    rw [exec_dispatch_unrecognised hs hchannel hnot, exec_unrecognised hframe hchannel hnot]

/-- Settles O15: DISPATCH completes, and the decoded operation answers the same. -/
theorem dispatchRunsTheDecodedCommand : Obligations.DispatchRunsTheDecodedCommand := by
  intro s hs
  obtain ⟨t, ht⟩ := execDispatch_completes s hs
  exact ⟨t, ht, (exec_decodeRx_header hs).trans ht⟩

/-- Settles O16: the row applies, and its update is `takeChannels`. -/
theorem channelFrameWritesAllFourteen : Obligations.ChannelFrameWritesAllFourteen := by
  intro s len hs hlen hc
  have hframe : s.atFrame len Config.cmdChannels = true := (atFrame_iff _ _ _).2 ⟨hs, lengthByte_eq hlen, hc⟩
  exact ⟨_, exec_channels hframe, channelWords_toNat s.payload, rfl, rfl, rfl, rfl⟩

/-- Settles O17: four uses of the one poll row. -/
theorem pollsEnterRespondPending : Obligations.PollsEnterRespondPending := by
  intro s a hs hlen ha hreg
  refine ⟨pollRow_of_number (sub := Config.subDiscover) (by decide) hs hlen ha hreg,
    pollRow_of_number (sub := Config.subType) (by decide) hs hlen ha hreg,
    pollRow_of_number (sub := Config.subValue) (by decide) hs hlen ha hreg, fun sub h8 h9 hA hnum => ?_⟩
  rw [← subInPlace_toNat] at hnum
  rw [exec_pollOther h8 h9 hA, pollRow_of_number (addrOf_subInPlace sub) hs hlen ha hreg hnum, ← subInPlace_toNat,
    BitVec.ofNat_toNat, BitVec.setWidth_eq]

/-- Settles O18: neither test of R73 holds, so the row applies, with the name of D18. -/
theorem unrecognisedFramesAreDropped : Obligations.UnrecognisedFramesAreDropped := by
  rintro s len cmd hs hlen rfl hc hnot
  have hframe : s.atFrame len s.payload[0] = true := (atFrame_iff _ _ _).2 ⟨hs, lengthByte_eq hlen, rfl⟩
  have hchannel : s.isChannelFrame = false := by rw [← Bool.not_eq_true, isChannelFrame_iff]; exact hc
  have hpoll : s.isSensorPoll = false := by
    rw [← Bool.not_eq_true, isSensorPoll_iff]
    exact fun ⟨_, ⟨hlow, hhigh⟩, hone⟩ => hnot ⟨hlow, hhigh, hone⟩
  rw [exec_unrecognised hframe hchannel hpoll, unrecognisedName_eq hchannel hpoll]
  rfl

/-! ### The responder -/

/-- R80, R81: EMIT is the row its sub-command selects. -/
theorem exec_emit {s : State} (hs : s.state = .respondPending) :
    exec .emit s = exec (decodeEmit s.pendSub s.pendAddr) s := by
  simp only [exec, execEmit, hs, ne_eq, not_true_eq_false, if_false, decodeEmit]
  split_ifs <;> rfl

/-- R80: EMIT completes where the address has an entry if one is read. -/
theorem exec_emit_completes {s : State} (hs : s.state = .respondPending)
    (ha : s.pendSub = Config.subType ∨ s.pendSub = Config.subValue →
      1 ≤ s.pendAddr.toNat ∧ s.pendAddr.toNat ≤ Config.maxSensors) : ∃ t, exec .emit s = .next t := by
  have hslot (h : s.pendSub = Config.subType ∨ s.pendSub = Config.subValue) :
      ∃ k : Fin Config.maxSensors, s.pendAddr.toNat = k.val + 1 :=
    ⟨⟨s.pendAddr.toNat - 1, by have := ha h; omega⟩, by have := ha h; simp only; omega⟩
  have hpend {sub : Byte} (h : s.pendSub = sub) : s.pendingIs sub s.pendAddr = true := (pendingIs_iff _ _ _).2 ⟨hs, h, rfl⟩
  rw [exec_emit hs, decodeEmit]
  split_ifs with h8 h9 hA
  · exact ⟨_, exec_replyDiscover (hpend h8)⟩
  · obtain ⟨k, hk⟩ := hslot (.inl h9)
    exact ⟨_, exec_replyType (hpend h9) hk⟩
  · obtain ⟨k, hk⟩ := hslot (.inr hA)
    exact ⟨_, exec_replyValue (hpend hA) hk⟩
  · exact ⟨_, exec_replyCancel hs h8 h9 hA⟩

/-- Settles O20: EMIT completes, and both updates it can make are written out. -/
theorem emitRunsItsOutcomeAndReturnsToIdle : Obligations.EmitRunsItsOutcomeAndReturnsToIdle := by
  intro s hs ha
  obtain ⟨t, ht⟩ := exec_emit_completes hs ha
  refine ⟨t, ht, (exec_emit hs).symm.trans ht, ?_⟩
  obtain ⟨-, ⟨body, -, rfl⟩ | rfl⟩ := execEmit_next ht
  · exact ⟨rfl, rfl, rfl, rfl⟩
  · exact ⟨rfl, rfl, rfl, rfl⟩

/-- R82 to R84: a reply row that completes sends a body of two or four bytes. -/
theorem exec_reply_next {s t : State} {a : Nibble} {i : Instr}
    (hi : i = .replyDiscover a ∨ i = .replyType a ∨ i = .replyValue a) (h : exec i s = .next t) : ∃ body, (body.length = 2 ∨ body.length = 4) ∧ t = s.sendReply body := by
  obtain rfl | rfl | rfl := hi
  · simp only [exec, execReplyDiscover] at h
    split at h
    · exact ⟨_, .inl rfl, (Host.Outcome.next.inj h).symm⟩
    · cases h
  · simp only [exec, execReplyType] at h
    split at h
    · split at h
      · exact ⟨_, .inr rfl, (Host.Outcome.next.inj h).symm⟩
      · cases h
    · cases h
  · simp only [exec, execReplyValue] at h
    split at h
    · split at h
      · exact ⟨_, .inr rfl, (Host.Outcome.next.inj h).symm⟩
      · cases h
    · cases h

theorem withChecksum_length (body : List Byte) : (withChecksum body).length = body.length + 2 := by
  simp [withChecksum]

/-- Settles O25: the two checksum bytes are added to the body. -/
theorem repliesAreCountedAndReported : Obligations.RepliesAreCountedAndReported := by
  intro s t a i hi h
  obtain ⟨body, hlen, rfl⟩ := exec_reply_next hi h
  refine ⟨withChecksum body, ?_, rfl⟩
  rw [withChecksum_length]
  omega

/-! ### The host operations -/

theorem exec_addSensor {s : State} (x : Byte) (h : s.sensorCount.toNat < Config.maxSensors) :
    exec (.addSensor x) s = .next (State.answer
      { s with sensorType := s.sensorType.set s.sensorCount.toNat x h, sensorCount := s.sensorCount + 1 }
      (.address (s.sensorCount + 1))) := dif_pos h

theorem exec_setMeas {s : State} {a : Byte} {k : Fin Config.maxSensors} (v : Word) (hk : a.toNat = k.val + 1)
    (ha : a.toNat ≤ s.sensorCount.toNat) :
    exec (.setMeas a v) s = .next { s with sensorValue := s.sensorValue.set k v } := by
  have hreg : 1 ≤ a.toNat ∧ a.toNat ≤ s.sensorCount.toNat := ⟨by omega, ha⟩
  rw [exec, execSetMeas, if_pos hreg, hk, sensorSlot_succ]

theorem exec_setMeas_unregistered {s : State} {a : Byte} (v : Word) (ha : ¬ (1 ≤ a.toNat ∧ a.toNat ≤ s.sensorCount.toNat)) :
    exec (.setMeas a v) s = .next (s.label .addressOutOfRange) := if_neg ha

/-- Settles O26: with room left the count does not wrap. -/
theorem addSensorAppends : Obligations.AddSensorAppends := by
  intro s x h
  have hnext : s.sensorCount + 1 = BitVec.ofNat 4 (s.sensorCount.toNat + 1) := by
    rw [BitVec.ofNat_add, BitVec.ofNat_toNat, BitVec.setWidth_eq]
    rfl
  rw [exec_addSensor x h, hnext]
  rfl

/-- Settles O28: the two clauses are the two answers of R91's test. -/
theorem setMeasWritesOneEntry : Obligations.SetMeasWritesOneEntry := by
  intro s a v
  exact ⟨fun k hk ha => exec_setMeas v hk ha, fun ha => exec_setMeas_unregistered v (by omega)⟩

/-- Settles O29: an index below 14 is inside the Channel Store, any other is not (D16). -/
theorem readsAnswerAndChangeNothing : Obligations.ReadsAnswerAndChangeNothing := by
  intro s
  have hinside (i : Fin 14) : s.channelAt i = s.ch[i] := dif_pos i.isLt
  have houtside (n : Nat) (hn : 14 ≤ n) : s.channelAt n = 0x0000 := dif_neg (Nat.not_lt.2 hn)
  refine ⟨fun i => ?_, fun n hn => ?_, rfl⟩
  · rw [← hinside]
    rfl
  · rw [← houtside n hn]
    rfl

end Sys2Proof.Machine
end

section
/-! The invariant of reachable states (10_state.md, 40_receiver_fsm.md): each update of the state keeps it, so every step does;
in a state that has it no step stops, and the running checksum never borrows. Then the statements O42, O43, O44 and O45. -/

namespace Sys2Proof.Machine

/-! ### Sums of bytes and counts of events -/

@[simp] theorem byteSum_nil : byteSum [] = 0 := rfl

@[simp] theorem byteSum_append (as bs : List Byte) : byteSum (as ++ bs) = byteSum as + byteSum bs := by
  simp [byteSum]

@[simp] theorem byteSum_singleton (b : Byte) : byteSum [b] = b.toNat := by simp [byteSum]

/-- R71: at most 29 bytes of payload. -/
theorem byteSum_payloadPrefix_le (s : State) (n : Nat) : byteSum (s.payloadPrefix n) ≤ 255 * n := by
  have hsum : byteSum (s.payloadPrefix n) ≤ 255 * (s.payloadPrefix n).length := byte_sum_le _
  have hlen : (s.payloadPrefix n).length ≤ n := List.length_take_le _ _
  omega

theorem channelEvents_append_channelsUpdated (es : List Event) :
    channelEvents (es ++ [.channelsUpdated]) = channelEvents es + 1 := by
  simp [channelEvents]

theorem replyEvents_append_channelsUpdated (es : List Event) : replyEvents (es ++ [.channelsUpdated]) = replyEvents es := by
  simp [replyEvents]

theorem replyBytes_append (es fs : List Event) : replyBytes (es ++ fs) = replyBytes es ++ replyBytes fs := by
  induction es with
  | nil => rfl
  | cons e es ih => cases e <;> simp [replyBytes, ih]

theorem channelEvents_append_replyReady (es : List Event) (bs : List Byte) :
    channelEvents (es ++ [.replyReady bs]) = channelEvents es := by
  simp [channelEvents]

theorem replyEvents_append_replyReady (es : List Event) (bs : List Byte) :
    replyEvents (es ++ [.replyReady bs]) = replyEvents es + 1 := by
  simp [replyEvents]

/-- R24 to R26: a count kept modulo 2^CNT_W, incremented. -/
theorem bump_mod (c : Config) (n : Nat) : bump c (n % 2 ^ c.cntW) = (n + 1) % 2 ^ c.cntW := by
  simp [bump]

theorem bump_lt (c : Config) (n : Nat) : bump c n < 2 ^ c.cntW := Nat.mod_lt _ (Nat.two_pow_pos _)

/-! ### Updates that keep the invariant -/

/-- The invariant reads neither the inputs nor the results and labels. -/
theorem State.Inv.consume {s : State} (h : s.Inv) (ts : List Turn) (rs : List RxByte) :
    State.Inv { s with turns := ts, rx := rs } := { h with }

theorem State.Inv.label {s : State} (h : s.Inv) (e : ErrorName) : (s.label e).Inv := { h with }

theorem State.Inv.answer {s : State} (h : s.Inv) (r : HostResult) : (s.answer r).Inv := { h with }

/-- R62: the timestamp is written modulo 2^TIME_W. -/
theorem State.Inv.withTime {s : State} (h : s.Inv) (now : Nat) :
    State.Inv { s with lastMs := now % 2 ^ s.cfg.timeW } :=
  { h with time := Nat.mod_lt _ (Nat.two_pow_pos _) }

theorem not_inFrame_of_idle {s : State} (hs : s.state = .idle) : ¬ s.inFrame := by
  simp [State.inFrame, hs]

/-- In Idle the invariant asks nothing of the frame registers but the bound of R12. -/
theorem inv_of_idle {s t : State} (h : s.Inv) (hs : t.state = .idle) (hcfg : t.cfg = s.cfg) (hlen : t.frameLen = s.frameLen)
    (htime : t.lastMs < 2 ^ s.cfg.timeW) (hpend : t.pendAddr = 0 ∧ t.pendSub = 0) (hpoll : t.cntPoll = s.cntPoll)
    (hregistry : t.sensorCount = s.sensorCount ∧ t.sensorType = s.sensorType ∧ t.sensorValue = s.sensorValue)
    (hchannel : t.cntChannel = channelEvents t.events % 2 ^ s.cfg.cntW)
    (hreply : t.cntReply = replyEvents t.events % 2 ^ s.cfg.cntW) (htx : t.tx = replyBytes t.events) : t.Inv where
  params := hcfg ▸ h.params
  time := hcfg ▸ htime
  channelCount := hcfg ▸ hchannel
  pollCount := by rw [hcfg, hpoll]; exact h.pollCount
  replyCount := hcfg ▸ hreply
  transmitted := htx
  resting := by simp [hs]
  lenMax := hlen ▸ h.lenMax
  lenMin hf := absurd hf (not_inFrame_of_idle hs)
  indexInside := by simp [hs]
  indexEnd := by simp [hs]
  runningSum hf := absurd hf (not_inFrame_of_idle hs)
  pending := by simp [hs]
  nonePending _ := hpend
  subLow := by rw [hpend.2]; rfl
  capacity := hregistry.1 ▸ h.capacity
  unregistered := by rw [hregistry.1, hregistry.2.1, hregistry.2.2]; exact h.unregistered

/-- R109: a dropped byte or frame. -/
theorem State.Inv.raiseToIdle {s : State} (h : s.Inv) (hs : s.state ≠ .respondPending) (e : ErrorName) :
    (s.raiseToIdle e).Inv :=
  inv_of_idle h rfl rfl rfl h.time (h.nonePending hs) rfl ⟨rfl, rfl, rfl⟩ h.channelCount h.replyCount h.transmitted

/-- R74, R94. -/
theorem State.Inv.takeChannels {s : State} (h : s.Inv) (hs : s.state ≠ .respondPending) : s.takeChannels.Inv := by
  refine inv_of_idle h rfl rfl rfl h.time (h.nonePending hs) rfl ⟨rfl, rfl, rfl⟩ ?_ ?_ ?_
  · rw [State.takeChannels_cntChannel, State.takeChannels_events, channelEvents_append_channelsUpdated, h.channelCount,
      bump_mod]
  · rw [State.takeChannels_cntReply, State.takeChannels_events, replyEvents_append_channelsUpdated, h.replyCount]
  · rw [State.takeChannels_tx, State.takeChannels_events, replyBytes_append, h.transmitted]
    simp [replyBytes]

/-- R86, R87, R94. -/
theorem State.Inv.sendReply {s : State} (h : s.Inv) (body : List Byte) : (s.sendReply body).Inv := by
  refine inv_of_idle h rfl rfl rfl h.time ⟨rfl, rfl⟩ rfl ⟨rfl, rfl, rfl⟩ ?_ ?_ ?_
  · rw [State.sendReply_cntChannel, State.sendReply_events, channelEvents_append_replyReady, h.channelCount]
  · rw [State.sendReply_cntReply, State.sendReply_events, replyEvents_append_replyReady, h.replyCount, bump_mod]
  · rw [State.sendReply_tx, State.sendReply_events, replyBytes_append, h.transmitted]
    simp [replyBytes]

theorem State.Inv.finishResponse {s : State} (h : s.Inv) : s.finishResponse.Inv :=
  inv_of_idle h rfl rfl rfl h.time ⟨rfl, rfl⟩ rfl ⟨rfl, rfl, rfl⟩ h.channelCount h.replyCount h.transmitted

theorem addrOf_subOf : ∀ c : Byte, addrOf (subOf c) = 0 := by decide

/-- R75: a poll of a registered address. -/
theorem State.Inv.poll {s : State} (h : s.Inv) {a : Nibble} (ha : s.registered a = true) (c : Byte) :
    (s.poll a (subOf c)).Inv :=
  { h with
    pollCount := bump_lt _ _
    resting := FsmState.noConfusion
    lenMin := fun hf => by simp [State.inFrame] at hf
    indexInside := FsmState.noConfusion
    indexEnd := fun hf => by simp at hf
    runningSum := fun hf => by simp [State.inFrame] at hf
    pending := fun _ => (registered_iff s a).1 ha
    nonePending := fun hn => absurd rfl hn
    subLow := addrOf_subOf c }

/-- R64: a valid length byte starts a frame of at least one payload byte, with the sum of R72 of no payload yet. -/
theorem State.Inv.startFrame {s : State} (h : s.Inv) (hs : s.state ≠ .respondPending) {b : Byte}
    (hb : validLength b = true) :
    State.Inv { s with
      frameLen := BitVec.ofNat 5 (b.toNat - Config.overhead), cksumRun := Config.ckSeed - b.setWidth 16, payloadIdx := 0,
      state := .collectPayload } := by
  obtain ⟨hmin, hmax⟩ := (validLength_iff b).1 hb
  have hlen : (BitVec.ofNat 5 (b.toNat - Config.overhead)).toNat = b.toNat - 3 := by
    rw [BitVec.toNat_ofNat, Nat.mod_eq_of_lt (by simp only [Config.overhead]; omega)]
  have hrun : (Config.ckSeed - b.setWidth 16).toNat = 0xFFFF - b.toNat := by
    rw [ckSeed_sub_eq_ofNat, BitVec.toNat_ofNat, Nat.mod_eq_of_lt (by omega)]
  exact
  { h with
    resting := FsmState.noConfusion
    lenMax := by simp only [hlen, Config.maxPayload]; omega
    lenMin := fun _ => by simp only [hlen]; omega
    indexInside := fun _ => by simp only [hlen]; simp; omega
    indexEnd := fun hf => by simp at hf
    runningSum := fun _ => by
      have hseed : Config.ckSeed.toNat = 0xFFFF := rfl
      simp only [hlen, hrun, hseed, State.payloadPrefix, Config.overhead]
      simp
      omega
    pending := FsmState.noConfusion
    nonePending := fun _ => h.nonePending hs }

/-- R65: a payload byte extends the stored part by one and lowers the running checksum by its value, with no borrow; the last
one makes the index the length. -/
theorem State.Inv.storeByte {s : State} (h : s.Inv) (hs : s.state = .collectPayload) (b : Byte)
    (hidx : s.payloadIdx.toNat < Config.maxPayload) :
    State.Inv { s with
      payload := s.payload.set s.payloadIdx.toNat b hidx, cksumRun := s.cksumRun - b.setWidth 16,
      payloadIdx := s.payloadIdx + 1,
      state := if s.payloadIdx + 1 = s.frameLen then .awaitChecksumLow else .collectPayload } := by
  have hframe : s.inFrame := .inl hs
  have hinside := h.indexInside hs
  have hmax := h.lenMax
  have hsum := h.runningSum hframe
  have hprefix := byteSum_payloadPrefix_le s s.payloadIdx.toNat
  have hb := b.isLt
  have hseed : Config.ckSeed.toNat = 0xFFFF := rfl
  simp only [Config.maxPayload, Config.overhead, hseed, State.payloadPrefix] at hmax hsum hidx hprefix
  have hnext : (s.payloadIdx + 1).toNat = s.payloadIdx.toNat + 1 := BitVec.toNat_add_of_lt (by simp; omega)
  have hrun : (s.cksumRun - b.setWidth 16).toNat = s.cksumRun.toNat - b.toNat := by
    rw [BitVec.toNat_sub_of_le] <;> simp [BitVec.le_def] <;> omega
  have hstored : byteSum (((s.payload.set s.payloadIdx.toNat b hidx).toList).take (s.payloadIdx.toNat + 1)) =
      byteSum (s.payload.toList.take s.payloadIdx.toNat) + b.toNat := by
    rw [payload_take_set, byteSum_append, byteSum_singleton]
  have hlast : s.payloadIdx + 1 = s.frameLen ↔ s.payloadIdx.toNat + 1 = s.frameLen.toNat := index_succ_eq_iff (by omega)
  exact
  { h with
    resting := by dsimp only; split_ifs <;> exact FsmState.noConfusion
    lenMin := fun _ => h.lenMin hframe
    indexInside := by
      dsimp only
      split_ifs with hend
      · simp
      · intro _
        rw [hlast] at hend
        omega
    indexEnd := by
      dsimp only
      split_ifs with hend
      · exact fun _ => hend
      · simp
    runningSum := fun _ => by
      simp only [State.payloadPrefix, hnext, hrun, hstored, hseed, Config.overhead]
      omega
    pending := by dsimp only; split_ifs <;> simp
    nonePending := fun _ => h.nonePending (by rw [hs]; exact FsmState.noConfusion) }

/-- R66. -/
theorem State.Inv.holdLow {s : State} (h : s.Inv) (hs : s.state = .awaitChecksumLow) (b : Byte) :
    State.Inv { s with cksumLo := b, state := .awaitChecksumHigh } :=
  { h with
    resting := FsmState.noConfusion
    lenMin := fun _ => h.lenMin (.inr (.inl hs))
    indexInside := FsmState.noConfusion
    indexEnd := fun _ => h.indexEnd (.inl hs)
    runningSum := fun _ => h.runningSum (.inr (.inl hs))
    pending := FsmState.noConfusion
    nonePending := fun _ => h.nonePending (by rw [hs]; exact FsmState.noConfusion) }

/-- R90, D15: the new entry had its reset value, and those above it keep it. -/
theorem State.Inv.addSensor {s : State} (h : s.Inv) (x : Byte) (hroom : s.sensorCount.toNat < Config.maxSensors) :
    State.Inv { s with
      sensorType := s.sensorType.set s.sensorCount.toNat x hroom, sensorCount := s.sensorCount + 1 } := by
  have hroom' : s.sensorCount.toNat < 10 := hroom
  have hnext : (s.sensorCount + 1).toNat = s.sensorCount.toNat + 1 := BitVec.toNat_add_of_lt (by simp; omega)
  exact
  { h with
    pending := fun hs => by
      obtain ⟨h1, h2⟩ := h.pending hs
      exact ⟨h1, by simp only [hnext]; omega⟩
    capacity := by simp only [hnext]; exact hroom
    unregistered := fun k hk => by
      simp only [hnext] at hk
      obtain ⟨htype, hvalue⟩ := h.unregistered k (by omega)
      exact ⟨(Vector.getElem_set_ne hroom k.isLt (by omega)).trans htype, hvalue⟩ }

/-- R91: only a registered entry is written. -/
theorem State.Inv.setMeas {s : State} (h : s.Inv) {k : Fin Config.maxSensors} (v : Word) (hk : k.val < s.sensorCount.toNat) :
    State.Inv { s with sensorValue := s.sensorValue.set k v } :=
  { h with
    unregistered := fun j hj => by
      obtain ⟨htype, hvalue⟩ := h.unregistered j hj
      exact ⟨htype, (Vector.getElem_set_ne k.isLt j.isLt (Nat.ne_of_lt (Nat.lt_of_lt_of_le hk hj))).trans hvalue⟩ }

/-- R29, R120: the reset state of a block with parameters that R8 allows. -/
theorem powerOn_inv {c : Config} (hc : c.wf = true) : (State.powerOn c).Inv where
  params := hc
  time := Nat.two_pow_pos _
  channelCount := (Nat.zero_mod _).symm
  pollCount := Nat.two_pow_pos _
  replyCount := (Nat.zero_mod _).symm
  transmitted := rfl
  resting := FsmState.noConfusion
  lenMax := Nat.zero_le _
  lenMin hf := absurd hf (not_inFrame_of_idle rfl)
  indexInside := FsmState.noConfusion
  indexEnd hf := hf.elim FsmState.noConfusion FsmState.noConfusion
  runningSum hf := absurd hf (not_inFrame_of_idle rfl)
  pending := FsmState.noConfusion
  nonePending _ := ⟨rfl, rfl⟩
  subLow := rfl
  capacity := Nat.zero_le _
  unregistered k _ := by simp [State.powerOn]

theorem State.Inv.resetBlock {s : State} (h : s.Inv) : s.resetBlock.Inv :=
  (powerOn_inv h.params).consume s.turns s.rx

/-! ### Every step keeps it -/

/-- The gap rule keeps the invariant as long as it does not restart the receiver. -/
theorem State.Inv.applyGap {s : State} (h : s.Inv) {now : Nat} (hg : s.processedIn now ≠ .awaitLength) :
    (s.applyGap now).Inv := by
  rw [applyGap_of_noGap (noGap_of_processedIn hg).1]
  exact h.withTime now

/-- R73: DISPATCH, whichever row it runs. -/
theorem execDispatch_keeps_inv {s t : State} (h : s.Inv) (hs : s.state = .awaitChecksumHigh)
    (hrun : execDispatch s = .next t) : t.Inv := by
  have hnp : s.state ≠ .respondPending := by rw [hs]; exact FsmState.noConfusion
  obtain ⟨_, e⟩ | ⟨hp, e⟩ | ⟨_, _, e⟩ := execDispatch_cases s hs <;> obtain rfl := Host.Outcome.next.inj (e.symm.trans hrun)
  · exact h.takeChannels hnp
  · obtain ⟨_, hreg, _⟩ := (isSensorPoll_iff s).1 hp
    exact h.poll ((registered_addrOf_iff s s.command).2 hreg) s.command
  · exact h.raiseToIdle hnp _

/-- R60: RXBYTE, whichever part it runs. A part that writes the FSM state itself needs of the gap rule the time alone. -/
theorem execRxbyte_keeps_inv {s t : State} {b : Byte} {now : Nat} (h : s.Inv) (hrun : execRxbyte b now s = .next t) :
    t.Inv := by
  obtain ⟨hs, g, rfl, hcases⟩ := execRxbyte_next hrun
  have hkeep {st : FsmState} (hst : (s.applyGap now).state = st) (hne : st ≠ .awaitLength) : (s.applyGap now).Inv :=
    h.applyGap (by rw [← applyGap_state_processedIn, hst]; exact hne)
  obtain ⟨hp, rfl⟩ | ⟨_, hb, rfl⟩ | ⟨_, _, rfl⟩ | ⟨hp, hi, rfl⟩ | ⟨hp, rfl⟩ | ⟨_, _, rfl⟩ | ⟨hp, _, hd⟩ := hcases
  · exact hkeep hp FsmState.noConfusion
  · exact (h.withTime now).startFrame hs hb
  · exact (h.withTime now).raiseToIdle hs _
  · exact (hkeep hp FsmState.noConfusion).storeByte hp b hi
  · exact (hkeep hp FsmState.noConfusion).holdLow hp b
  · exact (h.withTime now).raiseToIdle hs _
  · exact execDispatch_keeps_inv (hkeep hp FsmState.noConfusion) hp hd

/-- R80: EMIT, whichever row it runs. -/
theorem execEmit_keeps_inv {s t : State} (h : s.Inv) (hrun : execEmit s = .next t) : t.Inv := by
  obtain ⟨_, ⟨body, _, rfl⟩ | rfl⟩ := execEmit_next hrun
  · exact h.sendReply body
  · exact (h.label _).finishResponse

/-- R111: a host call. -/
theorem execCall_keeps_inv {s t : State} {c : HostCall} (h : s.Inv) (hrun : exec c.instr s = .next t) : t.Inv := by
  obtain ⟨x, _, hroom, rfl⟩ | ⟨_, _, _, rfl⟩ | ⟨a, v, k, _, _, hreg, hk, rfl⟩ | ⟨_, _, _, _, rfl⟩ | ⟨_, _, rfl⟩ | ⟨_, rfl⟩ |
    ⟨_, rfl⟩ := execCall_next hrun
  · exact (h.addSensor x hroom).answer _
  · exact (h.label _).answer _
  · have := sensorSlot_eq_some hk
    exact h.setMeas v (by omega)
  · exact h.label _
  · exact h.answer _
  · exact h.answer _
  · exact h.resetBlock

/-- Settles O42: the five things a step can run, each on the state with its input consumed. -/
theorem stepKeepsInv : Obligations.StepKeepsInv := by
  intro s t h hstep
  obtain ⟨_, rfl⟩ | ⟨ts, _, _, hrun⟩ | ⟨ts, _, _, _, rfl⟩ | ⟨ts, r, rs, _, _, _, hrun⟩ | ⟨c, ts, _, hrun⟩ := step_next hstep
  · exact h
  · exact execEmit_keeps_inv (h.consume ts s.rx) hrun
  · exact h.consume ts s.rx
  · exact execRxbyte_keeps_inv (h.consume ts rs) hrun
  · exact execCall_keeps_inv (h.consume ts s.rx) hrun

/-- Settles O43: the default parameters are ones that R8 allows. -/
theorem resetHasInv : Obligations.ResetHasInv := powerOn_inv (c := Config.standard) (by decide)

/-! ### No step stops, and no borrow -/

/-- R111: a host call is enabled in every state whose registry is in its bounds. -/
theorem execCall_completes {s : State} (h : s.sensorCount.toNat ≤ Config.maxSensors) (c : HostCall) :
    ∃ t, exec c.instr s = .next t := by
  cases c with
  | addSensor x =>
    by_cases hroom : s.sensorCount.toNat < Config.maxSensors
    · exact ⟨_, exec_addSensor x hroom⟩
    · exact ⟨_, exec_addSensor_full (Nat.not_lt.1 hroom) x⟩
  | setMeas a v =>
    by_cases hreg : 1 ≤ a.toNat ∧ a.toNat ≤ s.sensorCount.toNat
    · exact ⟨_, exec_setMeas (k := ⟨a.toNat - 1, by omega⟩) v (by simp only; omega) hreg.2⟩
    · exact ⟨_, exec_setMeas_unregistered v hreg⟩
  | readChannel i => exact ⟨_, rfl⟩
  | readCounters => exact ⟨_, rfl⟩
  | reset => exact ⟨_, rfl⟩

/-- R31: in a state with the invariant the buffer has a place for every payload byte. -/
theorem State.Inv.index_lt {s : State} (h : s.Inv) {now : Nat} (hp : s.processedIn now = .collectPayload) :
    s.payloadIdx.toNat < Config.maxPayload := by
  have hs : s.state = .collectPayload := by
    rw [← hp]
    exact (noGap_of_processedIn (by rw [hp]; exact FsmState.noConfusion)).2.symm
  exact Nat.lt_of_lt_of_le (h.indexInside hs) h.lenMax

/-- Settles O44: the move is none, an EMIT of a registered address, nothing, an RXBYTE with its place in the buffer, or a host
call. -/
theorem invStatesNeverStop : Obligations.InvStatesNeverStop := by
  intro s h
  rcases hturns : s.turns with _ | ⟨⟨⟩ | c, ts⟩
  · exact ⟨_, step_of_no_turns hturns⟩
  · by_cases hs : s.state = .respondPending
    · rw [step_emit hturns hs]
      obtain ⟨hlow, hhigh⟩ := h.pending hs
      exact exec_emit_completes hs fun _ => ⟨hlow, hhigh.trans h.capacity⟩
    · rcases hrx : s.rx with _ | ⟨r, rs⟩
      · exact ⟨_, step_no_byte hturns hs hrx⟩
      · rw [step_rxbyte hturns hs hrx]
        exact exec_rxbyte_completes _ _ hs (h.consume ts rs).index_lt
  · rw [step_host hturns]
    exact execCall_completes (h.consume ts s.rx).capacity c

/-- Settles O45: the sum of R72, with 29 payload bytes of at most 255. -/
theorem runningChecksumNeverBorrows : Obligations.RunningChecksumNeverBorrows := by
  intro s h hframe
  have hsum := h.runningSum hframe
  have hmax := h.lenMax
  have hidx : s.payloadIdx.toNat ≤ s.frameLen.toNat := by
    obtain hs | hs := hframe
    · exact (h.indexInside hs).le
    · exact (h.indexEnd hs).symm ▸ Nat.le_refl _
  have hprefix := byteSum_payloadPrefix_le s s.payloadIdx.toNat
  have hseed : Config.ckSeed.toNat = 0xFFFF := rfl
  simp only [hseed, Config.overhead, Config.maxPayload] at hsum hmax
  omega

end Sys2Proof.Machine
end

section
/-! What steps may do (60_exceptions.md, 43_host_operations.md): what an RXBYTE, an EMIT and a host call leave alone, and when
an RXBYTE does more than receive; then the statements O46, O47, O48, O49, O50, O51 and O53. -/

namespace Sys2Proof.Machine

/-! ### What each move leaves alone -/

/-- R60, R111: RXBYTE never touches the registry, the reply counter, what was transmitted or returned, the inputs and the
parameters, and keeps the time of its byte. -/
theorem execRxbyte_frame {s t : State} {b : Byte} {now : Nat} (h : execRxbyte b now s = .next t) :
    { t with state := s.state, frameLen := s.frameLen, payloadIdx := s.payloadIdx, payload := s.payload,
             cksumRun := s.cksumRun, cksumLo := s.cksumLo, pendAddr := s.pendAddr, pendSub := s.pendSub, ch := s.ch,
             cntChannel := s.cntChannel, cntPoll := s.cntPoll, events := s.events, errors := s.errors } =
      { s with lastMs := now % 2 ^ s.cfg.timeW } := by
  obtain ⟨_, g, rfl, hcases⟩ := execRxbyte_next h
  obtain ⟨_, rfl⟩ | ⟨_, _, rfl⟩ | ⟨_, _, rfl⟩ | ⟨_, _, rfl⟩ | ⟨_, rfl⟩ | ⟨_, _, rfl⟩ | ⟨hg, _, hd⟩ := hcases
  case inr.inr.inr.inr.inr.inr =>
    obtain ⟨_, e⟩ | ⟨_, e⟩ | ⟨_, _, e⟩ := execDispatch_cases _ hg <;>
      obtain rfl := Host.Outcome.next.inj (e.symm.trans hd) <;> rfl
  all_goals rfl

/-- R110, R111: a host call other than RESET touches the registry, the results and the labels alone. -/
theorem execCall_frame {s t : State} {c : HostCall} (hc : c ≠ .reset) (h : exec c.instr s = .next t) :
    { t with sensorCount := s.sensorCount, sensorType := s.sensorType, sensorValue := s.sensorValue,
             results := s.results, errors := s.errors } = s := by
  obtain ⟨_, _, _, rfl⟩ | ⟨_, _, _, rfl⟩ | ⟨_, _, _, _, _, _, _, rfl⟩ | ⟨_, _, _, _, rfl⟩ | ⟨_, _, rfl⟩ | ⟨_, rfl⟩ |
    ⟨rfl, _⟩ := execCall_next h
  case inr.inr.inr.inr.inr.inr => exact absurd rfl hc
  all_goals rfl

/-- R120: RESET, as a host call that completes. -/
theorem execReset_next {s t : State} (h : exec HostCall.reset.instr s = .next t) : t = s.resetBlock :=
  (Host.Outcome.next.inj h).symm

/-! ### When an RXBYTE does more than receive -/

/-- R60, R67: the byte `b`, taken at `now`, completes a frame: it is the last one, comes without a gap, and the checksum
matches. -/
def State.completesFrame (s : State) (b : Byte) (now : Nat) : Prop :=
  s.state = .awaitChecksumHigh ∧ ¬ gapAt s.cfg now s.lastMs ∧ b.toNat * 256 + s.cksumLo.toNat = s.cksumRun.toNat

/-- R73 to R75: an RXBYTE starts a response or emits an event only where it completes a frame, by one of the two updates that
DISPATCH has for it. -/
theorem execRxbyte_outcome {s t : State} {b : Byte} {now : Nat} (h : execRxbyte b now s = .next t) :
    (t.state ≠ .respondPending ∧ t.events = s.events ∧ t.ch = s.ch ∧ t.cntChannel = s.cntChannel) ∨
    (s.completesFrame b now ∧ s.isChannelFrame = true ∧ t = (s.applyGap now).takeChannels) ∨
    (s.completesFrame b now ∧ s.isSensorPoll = true ∧
      t = (s.applyGap now).poll (addrOf s.command) (subOf s.command)) := by
  obtain ⟨hs, g, rfl, hcases⟩ := execRxbyte_next h
  have hgap := applyGap_state_processedIn s now
  obtain ⟨_, rfl⟩ | ⟨_, _, rfl⟩ | ⟨_, _, rfl⟩ | ⟨_, _, rfl⟩ | ⟨_, rfl⟩ | ⟨_, _, rfl⟩ | ⟨hg, hm, hd⟩ := hcases
  case inl => exact .inl ⟨hgap ▸ processedIn_ne_respondPending now hs, rfl, rfl, rfl⟩
  case inr.inr.inr.inl =>
    refine .inl ⟨?_, rfl, rfl, rfl⟩
    dsimp only
    split_ifs <;> exact FsmState.noConfusion
  case inr.inr.inr.inr.inr.inr =>
    have hp : s.processedIn now = .awaitChecksumHigh := hgap.symm.trans hg
    obtain ⟨hnogap, hst⟩ := noGap_of_processedIn (s := s) (now := now) (by rw [hp]; exact FsmState.noConfusion)
    have hlast : s.completesFrame b now := ⟨hst.symm.trans hp, hnogap, (checksumMatches_iff _ b).1 hm⟩
    obtain ⟨hc, e⟩ | ⟨hpoll, e⟩ | ⟨_, _, e⟩ := execDispatch_cases _ hg <;>
      obtain rfl := Host.Outcome.next.inj (e.symm.trans hd)
    · exact .inr (.inl ⟨hlast, hc, rfl⟩)
    · exact .inr (.inr ⟨hlast, hpoll, rfl⟩)
    · exact .inl ⟨FsmState.noConfusion, rfl, rfl, rfl⟩
  all_goals exact .inl ⟨FsmState.noConfusion, rfl, rfl, rfl⟩

/-! ### The statements -/

/-- Settles O46: of the five things a step can run, only an RXBYTE that completes a poll ends in RespondPending without having
started there. -/
theorem onlyAPollStartsAResponse : Obligations.OnlyAPollStartsAResponse := by
  intro s t hstep hs ht
  obtain ⟨_, rfl⟩ | ⟨ts, _, hpend, _⟩ | ⟨ts, _, _, _, rfl⟩ | ⟨ts, r, rs, hturns, _, hrx, hrun⟩ | ⟨c, ts, _, hrun⟩ :=
    step_next hstep
  · exact absurd ht hs
  · exact absurd hpend hs
  · exact absurd ht hs
  · obtain ⟨hnot, _⟩ | ⟨_, _, rfl⟩ | ⟨⟨hlast, hnogap, hsum⟩, hpoll, rfl⟩ := execRxbyte_outcome hrun
    · exact absurd ht hnot
    · cases ht
    · obtain ⟨hc, hreg, hlen⟩ := (isSensorPoll_iff _).1 hpoll
      have haddr : (addrOf s.command).toNat = s.payload[0].toNat % 16 := addrOf_toNat _
      refine ⟨⟨hlast, by rw [hturns]; rfl, r, hrx, hnogap, hsum⟩, hlen, hc, haddr, subOf_toNat _, ?_, ?_, rfl, rfl, rfl, rfl⟩
      · exact haddr.symm ▸ hreg.1
      · exact haddr.symm ▸ hreg.2
  · by_cases hc : c = .reset
    · subst hc
      rw [execReset_next hrun] at ht
      cases ht
    · have hsame : t.state = s.state := (congrArg State.state (execCall_frame hc hrun) :)
      exact absurd (hsame.symm.trans ht) hs

/-- Settles O47: EMIT and RESET end in Idle; no other step can touch the response. -/
theorem pendingIsLeftOnlyByEmitOrReset : Obligations.PendingIsLeftOnlyByEmitOrReset := by
  intro s t hstep hs
  obtain ⟨_, rfl⟩ | ⟨ts, hturns, _, hrun⟩ | ⟨ts, _, hnot, _⟩ | ⟨ts, r, rs, _, hnot, _⟩ | ⟨c, ts, hturns, hrun⟩ := step_next hstep
  · exact ⟨rfl, .inl ⟨hs, rfl, rfl, rfl⟩⟩
  · have hhead : s.turns.head? = some .driver := by rw [hturns]; rfl
    obtain ⟨_, ⟨body, _, rfl⟩ | rfl⟩ := execEmit_next hrun
    · exact ⟨rfl, .inr ⟨rfl, rfl, rfl, .inl hhead⟩⟩
    · exact ⟨rfl, .inr ⟨rfl, rfl, rfl, .inl hhead⟩⟩
  · exact absurd hs hnot
  · exact absurd hs hnot
  · by_cases hc : c = .reset
    · subst hc
      have hhead : s.turns.head? = some (.host .reset) := by rw [hturns]; rfl
      obtain rfl := execReset_next hrun
      exact ⟨rfl, .inr ⟨rfl, rfl, rfl, .inr hhead⟩⟩
    · have hframe := execCall_frame hc hrun
      exact ⟨(congrArg State.rx hframe :), .inl ⟨(congrArg State.state hframe :).trans hs, (congrArg State.pendAddr hframe :),
        (congrArg State.pendSub hframe :), (congrArg State.tx hframe :)⟩⟩

/-- Settles O48: EMIT reports its reply, an RXBYTE a completed channel frame, and nothing else emits an event. -/
theorem stepEmitsAtMostOneEvent : Obligations.StepEmitsAtMostOneEvent := by
  intro s t hstep hreset
  obtain ⟨_, rfl⟩ | ⟨ts, hturns, hs, hrun⟩ | ⟨ts, _, _, _, rfl⟩ | ⟨ts, r, rs, hturns, _, hrx, hrun⟩ | ⟨c, ts, hturns, hrun⟩ :=
    step_next hstep
  · exact .inl ⟨rfl, rfl, rfl, rfl, rfl⟩
  · have hhead : s.turns.head? = some .driver := by rw [hturns]; rfl
    obtain ⟨_, ⟨body, _, rfl⟩ | rfl⟩ := execEmit_next hrun
    · exact .inr (.inr ⟨withChecksum body, rfl, rfl, rfl, rfl, rfl, hhead, hs, rfl⟩)
    · exact .inl ⟨rfl, rfl, rfl, rfl, rfl⟩
  · exact .inl ⟨rfl, rfl, rfl, rfl, rfl⟩
  · have hframe := execRxbyte_frame hrun
    obtain ⟨_, hevents, hch, hcnt⟩ | ⟨⟨hlast, hnogap, hsum⟩, hc, rfl⟩ | ⟨_, _, rfl⟩ := execRxbyte_outcome hrun
    · exact .inl ⟨hevents, hch, hcnt, (congrArg State.tx hframe :), (congrArg State.cntReply hframe :)⟩
    · have hhead : s.turns.head? = some .driver := by rw [hturns]; rfl
      exact .inr (.inl ⟨rfl, rfl, rfl, rfl, rfl, ⟨hlast, hhead, r, hrx, hnogap, hsum⟩, (isChannelFrame_iff _).1 hc, rfl⟩)
    · exact .inl ⟨rfl, rfl, rfl, rfl, rfl⟩
  · have hc : c ≠ .reset := by
      rintro rfl
      exact hreset (by rw [hturns]; rfl)
    have hframe := execCall_frame hc hrun
    exact .inl ⟨(congrArg State.events hframe :), (congrArg State.ch hframe :), (congrArg State.cntChannel hframe :),
      (congrArg State.tx hframe :), (congrArg State.cntReply hframe :)⟩

/-- Settles O49: the step is the call in the state with its move consumed. -/
theorem hostMovesTouchOnlyTheRegistry : Obligations.HostMovesTouchOnlyTheRegistry := by
  intro s t c ts hturns hc hstep
  rw [step_host hturns] at hstep
  have hframe := execCall_frame hc hstep
  exact (congrArg (fun u : State => { u with turns := s.turns }) hframe :)

/-- Settles O50: the step is an EMIT, an RXBYTE or nothing. -/
theorem driverMovesLeaveTheRegistry : Obligations.DriverMovesLeaveTheRegistry := by
  intro s t ts hturns hstep
  obtain ⟨hnone, _⟩ | ⟨_, _, _, hrun⟩ | ⟨_, _, _, _, rfl⟩ | ⟨_, _, _, _, _, _, hrun⟩ | ⟨_, _, hhost, _⟩ := step_next hstep
  · rw [hturns] at hnone
    cases hnone
  · obtain ⟨_, ⟨_, _, rfl⟩ | rfl⟩ := execEmit_next hrun
    · exact ⟨rfl, rfl, rfl, rfl⟩
    · exact ⟨rfl, rfl, rfl, rfl⟩
  · exact ⟨rfl, rfl, rfl, rfl⟩
  · have hframe := execRxbyte_frame hrun
    exact ⟨(congrArg State.sensorCount hframe :), (congrArg State.sensorType hframe :), (congrArg State.sensorValue hframe :),
      (congrArg State.results hframe :)⟩
  · rw [hturns] at hhost
    cases hhost

/-- R90, R91: a host call other than RESET takes no sensor away and writes no type that was set. -/
theorem execCall_registry {s t : State} {c : HostCall} (hc : c ≠ .reset) (h : exec c.instr s = .next t) :
    s.sensorCount.toNat ≤ t.sensorCount.toNat ∧
      ∀ k : Fin 10, k.val < s.sensorCount.toNat → t.sensorType[k] = s.sensorType[k] := by
  obtain ⟨x, _, hroom, rfl⟩ | ⟨_, _, _, rfl⟩ | ⟨_, _, _, _, _, _, _, rfl⟩ | ⟨_, _, _, _, rfl⟩ | ⟨_, _, rfl⟩ | ⟨_, rfl⟩ |
    ⟨rfl, _⟩ := execCall_next h
  case inl =>
    have hnext : (s.sensorCount + 1).toNat = s.sensorCount.toNat + 1 :=
      BitVec.toNat_add_of_lt (by simp only [Config.maxSensors] at hroom; simp; omega)
    refine ⟨?_, fun k hk => Vector.getElem_set_ne hroom k.isLt (Nat.ne_of_gt hk)⟩
    rw [State.answer_sensorCount, hnext]
    exact Nat.le_succ _
  case inr.inr.inr.inr.inr.inr => exact absurd rfl hc
  all_goals exact ⟨Nat.le_refl _, fun _ _ => rfl⟩

/-- Settles O51: the driver's moves leave the registry alone (O50), and so does a step without a move. -/
theorem registeredSensorsPersist : Obligations.RegisteredSensorsPersist := by
  intro s t hstep hreset
  rcases hturns : s.turns with _ | ⟨⟨⟩ | c, ts⟩
  · rw [step_of_no_turns hturns] at hstep
    obtain rfl := Host.Outcome.next.inj hstep
    exact ⟨Nat.le_refl _, fun _ _ => rfl⟩
  · obtain ⟨hcount, htype, _, _⟩ := driverMovesLeaveTheRegistry s t ts hturns hstep
    rw [hcount, htype]
    exact ⟨Nat.le_refl _, fun _ _ => rfl⟩
  · rw [step_host hturns] at hstep
    have hc : c ≠ .reset := by
      rintro rfl
      exact hreset (by rw [hturns]; rfl)
    exact (execCall_registry hc hstep :)

/-- Settles O53: each of the five things a step can run leaves the inputs as its fetch left them. -/
theorem inputsAreConsumedInOrder : Obligations.InputsAreConsumedInOrder := by
  intro s t hstep
  obtain ⟨hturns, rfl⟩ | ⟨ts, hturns, _, hrun⟩ | ⟨ts, hturns, _, _, rfl⟩ | ⟨ts, r, rs, hturns, hs, hrx, hrun⟩ |
    ⟨c, ts, hturns, hrun⟩ := step_next hstep
  · exact ⟨by rw [hturns]; rfl, rfl, .inl rfl⟩
  · have htail : ts = s.turns.tail := by rw [hturns]; rfl
    obtain ⟨_, ⟨body, _, rfl⟩ | rfl⟩ := execEmit_next hrun
    · exact ⟨htail, rfl, .inl rfl⟩
    · exact ⟨htail, rfl, .inl rfl⟩
  · exact ⟨by rw [hturns]; rfl, rfl, .inl rfl⟩
  · have hframe := execRxbyte_frame hrun
    have hrest : t.rx = rs := (congrArg State.rx hframe :)
    refine ⟨?_, (congrArg State.cfg hframe :), .inr ⟨r, by rw [hrest, hrx], by rw [hturns]; rfl, hs, ?_⟩⟩
    case refine_2 => exact (congrArg State.lastMs hframe :)
    exact (congrArg State.turns hframe :).trans (by rw [hturns]; rfl)
  · have htail : ts = s.turns.tail := by rw [hturns]; rfl
    by_cases hc : c = .reset
    · subst hc
      obtain rfl := execReset_next hrun
      exact ⟨htail, rfl, .inl rfl⟩
    · have hframe := execCall_frame hc hrun
      exact ⟨(congrArg State.turns hframe :).trans htail, (congrArg State.cfg hframe :), .inl (congrArg State.rx hframe :)⟩

end Sys2Proof.Machine
end

section
/-! The ghost histories decide nothing (10_state.md section 7, R27, R100): every operation a move can ask for runs alike in two
states that differ in them alone; then the statement O52. -/

namespace Sys2Proof.Machine

/-! ### States and outcomes alike but for the ghosts -/

/-- `s` with the ghost histories of `g`. -/
def State.withGhosts (s g : State) : State :=
  { s with tx := g.tx, events := g.events, results := g.results, errors := g.errors }

theorem sameButGhosts_iff (s s' : State) : s.sameButGhosts s' ↔ s' = s.withGhosts s' := by
  constructor
  · rintro ⟨hregs, hrx, hturns⟩
    cases s
    cases s'
    simp_all [State.registers, State.withGhosts]
  · intro h
    rw [h]
    exact ⟨rfl, rfl, rfl⟩

/-- Two outcomes are alike: both go on, to states that differ in the ghosts alone, or both stop for the same reason. -/
def sameOutcome : Result → Result → Prop
  | .next t, .next t' => t.sameButGhosts t'
  | .fault f, .fault f' => f = f'
  | .refused r, .refused r' => r = r'
  | _, _ => False

theorem sameOutcome_next {t : State} {o : Result} (h : sameOutcome (.next t) o) :
    ∃ t', o = .next t' ∧ t.sameButGhosts t' := by
  cases o with
  | next t' => exact ⟨t', rfl, h⟩
  | fault f => exact h.elim
  | refused r => exact h.elim

/-- A test of the registers decides alike on both sides. -/
theorem sameOutcome_ite {c : Prop} [Decidable c] {a b a' b' : Result} (ht : sameOutcome a a') (he : sameOutcome b b') :
    sameOutcome (if c then a else b) (if c then a' else b') := by
  split_ifs
  · exact ht
  · exact he

theorem sameOutcome_dite {c : Prop} [Decidable c] {a a' : c → Result} {b b' : ¬ c → Result}
    (ht : ∀ h, sameOutcome (a h) (a' h)) (he : ∀ h, sameOutcome (b h) (b' h)) :
    sameOutcome (dite c a b) (dite c a' b') := by
  split_ifs with h
  · exact ht h
  · exact he h

/-- An access to the registry faults alike on both sides. -/
theorem sameOutcome_slot {o : Option (Fin Config.maxSensors)} {f f' : Fin Config.maxSensors → Result}
    (h : ∀ k, sameOutcome (f k) (f' k)) :
    sameOutcome (match o with | some k => f k | none => .fault .noSuchSensorEntry)
      (match o with | some k => f' k | none => .fault .noSuchSensorEntry) := by
  cases o with
  | none => rfl
  | some k => exact h k

/-- The operation runs alike whatever the ghosts are. -/
def GhostBlind (i : Instr) : Prop := ∀ s g : State, sameOutcome (exec i s) (exec i (s.withGhosts g))

/-! ### The operations -/

theorem ghostBlind_rxIdle (b : Byte) : GhostBlind (.rxIdle b) := fun _ _ => sameOutcome_ite ⟨rfl, rfl, rfl⟩ rfl

theorem ghostBlind_rxLen (b : Byte) : GhostBlind (.rxLen b) := fun _ _ =>
  sameOutcome_ite (sameOutcome_ite ⟨rfl, rfl, rfl⟩ ⟨rfl, rfl, rfl⟩) rfl

theorem ghostBlind_rxData (b : Byte) : GhostBlind (.rxData b) := fun _ _ =>
  sameOutcome_ite (sameOutcome_dite (fun _ => ⟨rfl, rfl, rfl⟩) fun _ => rfl) rfl

theorem ghostBlind_rxCkl (b : Byte) : GhostBlind (.rxCkl b) := fun _ _ => sameOutcome_ite ⟨rfl, rfl, rfl⟩ rfl

/-- R73: DISPATCH reads the frame and the registry. -/
theorem sameOutcome_dispatch {s : State} (g : State) (hs : s.state = .awaitChecksumHigh) :
    sameOutcome (exec .dispatch s) (exec .dispatch (s.withGhosts g)) := by
  have hs' : (s.withGhosts g).state = .awaitChecksumHigh := hs
  cases hc : s.isChannelFrame with
  | true =>
    rw [exec_dispatch_channels hs hc, exec_dispatch_channels hs' hc]
    exact ⟨rfl, rfl, rfl⟩
  | false =>
    cases hp : s.isSensorPoll with
    | true =>
      rw [exec_dispatch_poll hs hp, exec_dispatch_poll hs' hp]
      exact ⟨rfl, rfl, rfl⟩
    | false =>
      rw [exec_dispatch_unrecognised hs hc hp, exec_dispatch_unrecognised hs' hc hp]
      exact ⟨rfl, rfl, rfl⟩

theorem exec_rxCkh_notApplicable {s : State} {b : Byte} (hs : s.state ≠ .awaitChecksumHigh) :
    exec (.rxCkh b) s = .refused .notApplicable := if_neg hs

theorem ghostBlind_rxCkh (b : Byte) : GhostBlind (.rxCkh b) := fun s g => by
  by_cases hs : s.state = .awaitChecksumHigh
  · exact sameOutcome_ite (sameOutcome_ite (sameOutcome_dispatch g hs) ⟨rfl, rfl, rfl⟩) rfl
  · rw [exec_rxCkh_notApplicable hs, exec_rxCkh_notApplicable (s := s.withGhosts g) hs]
    rfl

/-- R60: the part that a byte selects. -/
theorem ghostBlind_byteStep {st : FsmState} {b : Byte} {i : Instr} (hi : decodeByteStep st b = some i) : GhostBlind i := by
  cases st <;> cases hi
  case idle => exact ghostBlind_rxIdle b
  case awaitLength => exact ghostBlind_rxLen b
  case collectPayload => exact ghostBlind_rxData b
  case awaitChecksumLow => exact ghostBlind_rxCkl b
  case awaitChecksumHigh => exact ghostBlind_rxCkh b

/-- R60, R61: the gap rule reads the time and the FSM state. -/
theorem ghostBlind_rxbyte (b : Byte) (now : Nat) : GhostBlind (.rxbyte b now) := fun s g => by
  by_cases hs : s.state = .respondPending
  · rw [exec_rxbyte_pending b now hs, exec_rxbyte_pending (s := s.withGhosts g) b now hs]
    rfl
  · obtain ⟨i, hi⟩ := decodeByteStep_of_not_pending b (processedIn_ne_respondPending now hs)
    rw [exec_rxbyte hs hi, exec_rxbyte (s := s.withGhosts g) hs hi]
    exact ghostBlind_byteStep hi (s.applyGap now) g

theorem ghostBlind_replyDiscover (a : Nibble) : GhostBlind (.replyDiscover a) := fun _ _ =>
  sameOutcome_ite ⟨rfl, rfl, rfl⟩ rfl

theorem ghostBlind_replyType (a : Nibble) : GhostBlind (.replyType a) := fun _ _ =>
  sameOutcome_ite (sameOutcome_slot (o := sensorSlot a.toNat) fun _ => ⟨rfl, rfl, rfl⟩) rfl

theorem ghostBlind_replyValue (a : Nibble) : GhostBlind (.replyValue a) := fun _ _ =>
  sameOutcome_ite (sameOutcome_slot (o := sensorSlot a.toNat) fun _ => ⟨rfl, rfl, rfl⟩) rfl

theorem ghostBlind_replyCancel : GhostBlind .replyCancel := fun _ _ => sameOutcome_ite ⟨rfl, rfl, rfl⟩ rfl

/-- R81: the outcome of EMIT, whichever the sub-command selects. -/
theorem ghostBlind_decodeEmit (sub : Byte) (a : Nibble) : GhostBlind (decodeEmit sub a) := by
  unfold decodeEmit
  split_ifs
  · exact ghostBlind_replyDiscover a
  · exact ghostBlind_replyType a
  · exact ghostBlind_replyValue a
  · exact ghostBlind_replyCancel

theorem sameOutcome_emit {s : State} (g : State) (hs : s.state = .respondPending) :
    sameOutcome (exec .emit s) (exec .emit (s.withGhosts g)) := by
  rw [exec_emit hs, exec_emit (s := s.withGhosts g) hs]
  exact ghostBlind_decodeEmit s.pendSub s.pendAddr s g

/-- R111: the host's calls. -/
theorem ghostBlind_call (c : HostCall) : GhostBlind c.instr := fun s g => by
  cases c with
  | addSensor x => exact sameOutcome_dite (fun _ => ⟨rfl, rfl, rfl⟩) fun _ => ⟨rfl, rfl, rfl⟩
  | setMeas a v =>
    exact sameOutcome_ite (sameOutcome_slot (o := sensorSlot a.toNat) fun _ => ⟨rfl, rfl, rfl⟩) ⟨rfl, rfl, rfl⟩
  | readChannel i => exact ⟨rfl, rfl, rfl⟩
  | readCounters => exact ⟨rfl, rfl, rfl⟩
  | reset => exact ⟨rfl, rfl, rfl⟩

/-! ### The step -/

/-- R36: the move is fetched from the inputs and the FSM state, and what it asks for runs alike. -/
theorem sameOutcome_step (s g : State) : sameOutcome (step s) (step (s.withGhosts g)) := by
  rcases hturns : s.turns with _ | ⟨⟨⟩ | c, ts⟩
  · rw [step_of_no_turns hturns, step_of_no_turns (s := s.withGhosts g) hturns]
    exact ⟨rfl, rfl, rfl⟩
  · by_cases hs : s.state = .respondPending
    · rw [step_emit hturns hs, step_emit (s := s.withGhosts g) hturns hs]
      exact sameOutcome_emit (s := { s with turns := ts }) g hs
    · rcases hrx : s.rx with _ | ⟨r, rs⟩
      · rw [step_no_byte hturns hs hrx, step_no_byte (s := s.withGhosts g) hturns hs hrx]
        exact ⟨rfl, rfl, rfl⟩
      · rw [step_rxbyte hturns hs hrx, step_rxbyte (s := s.withGhosts g) hturns hs hrx]
        exact ghostBlind_rxbyte r.byte r.nowMs { s with turns := ts, rx := rs } g
  · rw [step_host hturns, step_host (s := s.withGhosts g) hturns]
    exact ghostBlind_call c { s with turns := ts } g

/-- Settles O52: the second state is the first with other ghosts, and their steps are alike. -/
theorem ghostsDecideNothing : Obligations.GhostsDecideNothing := by
  intro s s' t hsame hstep
  have halike := sameOutcome_step s s'
  rw [← (sameButGhosts_iff s s').1 hsame, hstep] at halike
  exact sameOutcome_next halike

end Sys2Proof.Machine
end

section
/-! Runs of bytes (40_receiver_fsm.md): a byte with and without a gap before it, the receiver in the middle of a frame, and what
a frame received in one burst runs; polls and their replies together. Then the statements O35, O36, O37, O38, O41, O54 and
O55. -/

namespace Sys2Proof.Machine

/-! ### One byte, and runs of bytes -/

theorem processedIn_of_noGap {s : State} {now : Nat} (h : ¬ gapAt s.cfg now s.lastMs) : s.processedIn now = s.state :=
  if_neg h

theorem processedIn_of_gap {s : State} {now : Nat} (h : gapAt s.cfg now s.lastMs) : s.processedIn now = .awaitLength :=
  if_pos h

theorem exec_rxbyte_noGap {s : State} {b : Byte} {now : Nat} {i : Instr} (hg : ¬ gapAt s.cfg now s.lastMs)
    (hi : decodeByteStep s.state b = some i) :
    exec (.rxbyte b now) s = exec i { s with lastMs := now % 2 ^ s.cfg.timeW } := by
  have hs : s.state ≠ .respondPending := by
    intro h
    rw [h] at hi
    cases hi
  rw [exec_rxbyte (i := i) hs (by rwa [processedIn_of_noGap hg]), applyGap_of_noGap hg]

theorem exec_rxbyte_gap {s : State} {b : Byte} {now : Nat} (hs : s.state ≠ .respondPending) (hg : gapAt s.cfg now s.lastMs) :
    exec (.rxbyte b now) s = exec (.rxLen b) { s with state := .awaitLength, lastMs := now % 2 ^ s.cfg.timeW } := by
  rw [exec_rxbyte (i := .rxLen b) hs (by rw [processedIn_of_gap hg]; rfl), applyGap_of_gap hg]

theorem receive_cons {r : RxByte} {s u : State} (rs : List RxByte) (h : exec (.rxbyte r.byte r.nowMs) s = .next u) :
    receive (r :: rs) s = receive rs u := by
  rw [receive, h]

theorem receive_append {as bs : List RxByte} {s u : State} (h : receive as s = .next u) :
    receive (as ++ bs) s = receive bs u := by
  induction as generalizing s with
  | nil => cases h; rfl
  | cons a as ih =>
    rw [receive] at h
    split at h
    next v hv => rw [List.cons_append, receive_cons _ hv, ih h]
    next hnot => exact absurd h (hnot u)

theorem receive_singleton (r : RxByte) (s : State) : receive [r] s = exec (.rxbyte r.byte r.nowMs) s := by
  rw [receive]
  cases exec (.rxbyte r.byte r.nowMs) s <;> rfl

/-- Settles O38: by induction on the bytes, each dropped by RX.IDLE. -/
theorem noResynchronisationWithoutSilence : Obligations.NoResynchronisationWithoutSilence := by
  intro s rs
  induction rs generalizing s with
  | nil => exact fun _ _ => rfl
  | cons r rs ih =>
    rintro hs ⟨hg, hrest⟩
    have hdrop : exec (.rxbyte r.byte r.nowMs) s = .next { s with lastMs := r.nowMs % 2 ^ s.cfg.timeW } := by
      rw [exec_rxbyte_noGap (i := .rxIdle r.byte) hg (by rw [hs]; rfl)]
      exact exec_rxIdle _ hs
    rw [receive_cons rs hdrop]
    exact ih _ hs hrest

/-- Settles O37: the length byte is a FramingError, and the rest is O38 from the Idle it leaves. -/
theorem badLengthDropsUntilAGap : Obligations.BadLengthDropsUntilAGap := by
  rintro s r rs hs ⟨hg, hrest⟩ hbad
  have hinvalid : ¬ validLength r.byte = true := by
    rw [validLength_iff]
    omega
  have hdrop := (exec_rxbyte_gap (b := r.byte) hs hg).trans (exec_rxLen_invalid rfl hinvalid)
  rw [receive_cons rs hdrop]
  exact noResynchronisationWithoutSilence _ rs rfl hrest

/-! ### The payload buffer -/

theorem overwrite_getElem (p : Vector Byte Config.maxPayload) (bs : List Byte) (k : Nat) (hk : k < Config.maxPayload) :
    (overwrite p bs)[k] = if h : k < bs.length then bs[k] else p[k] := by
  simp [overwrite]

theorem overwrite_nil (p : Vector Byte Config.maxPayload) : overwrite p [] = p := by
  ext k hk
  simp [overwrite_getElem]

/-- R65: the next byte is stored behind those already stored. -/
theorem overwrite_set {p : Vector Byte Config.maxPayload} {bs : List Byte} {b : Byte} {n : Nat} (hn : n = bs.length)
    (h : n < Config.maxPayload) : (overwrite p bs).set n b h = overwrite p (bs ++ [b]) := by
  subst hn
  ext k hk
  rw [Vector.getElem_set, overwrite_getElem, overwrite_getElem]
  obtain hlt | rfl | hgt := Nat.lt_trichotomy k bs.length
  · simp [hlt, Nat.ne_of_gt hlt, Nat.lt_succ_of_lt hlt]
  · simp
  · simp [Nat.ne_of_lt hgt, Nat.not_lt_of_gt hgt, Nat.not_lt.2 (Nat.succ_le_of_lt hgt)]

/-! ### A frame being received -/

/-- The receiver after the length byte `len` and the payload bytes `stored`, more of them being due (R64, R65). -/
def State.collecting (s : State) (len : Byte) (stored : List Byte) (last : Nat) : State :=
  { s with
    state := .collectPayload
    frameLen := BitVec.ofNat 5 (len.toNat - Config.overhead)
    payloadIdx := BitVec.ofNat 5 stored.length
    payload := overwrite s.payload stored
    cksumRun := checksum (len :: stored)
    lastMs := last }

/-- R64: a valid length byte after a gap. -/
theorem exec_rxbyte_startFrame {s : State} {len : Byte} {now : Nat} (hs : s.state ≠ .respondPending)
    (hg : gapAt s.cfg now s.lastMs) (hlen : validLength len = true) :
    exec (.rxbyte len now) s = .next (s.collecting len [] (now % 2 ^ s.cfg.timeW)) := by
  rw [exec_rxbyte_gap hs hg, exec_rxLen_valid rfl hlen]
  simp [State.collecting, overwrite_nil, checksum]

/-- R65: one payload byte, the last one or not. -/
theorem exec_rxbyte_storeByte {s : State} {len b : Byte} {stored : List Byte} {last now : Nat} (hg : ¬ gapAt s.cfg now last)
    (hroom : stored.length < len.toNat - Config.overhead) (hlen : validLength len = true) :
    exec (.rxbyte b now) (s.collecting len stored last) = .next
      { s.collecting len (stored ++ [b]) (now % 2 ^ s.cfg.timeW) with
        state := if stored.length + 1 = len.toNat - Config.overhead then .awaitChecksumLow else .collectPayload } := by
  have hmax := ((validLength_iff len).1 hlen).2
  simp only [Config.overhead] at hroom
  have hidx : (BitVec.ofNat 5 stored.length).toNat = stored.length := by
    rw [BitVec.toNat_ofNat, Nat.mod_eq_of_lt (by omega)]
  have hframeLen : (BitVec.ofNat 5 (len.toNat - Config.overhead)).toNat = len.toNat - Config.overhead := by
    rw [BitVec.toNat_ofNat, Nat.mod_eq_of_lt (by simp only [Config.overhead]; omega)]
  have hend : BitVec.ofNat 5 stored.length + 1 = BitVec.ofNat 5 (len.toNat - Config.overhead) ↔
      stored.length + 1 = len.toNat - Config.overhead := by
    rw [index_succ_eq_iff (by rw [hidx]; omega), hidx, hframeLen]
  have hplace : (BitVec.ofNat 5 stored.length).toNat < Config.maxPayload := by
    rw [hidx]
    simp only [Config.maxPayload]
    omega
  rw [exec_rxbyte_noGap (i := .rxData b) hg rfl, exec_rxData b rfl hplace]
  simp only [State.collecting, hend, overwrite_set hidx, ← checksum_snoc, List.cons_append]
  simp [BitVec.ofNat_add]

/-- R65, by induction on the payload bytes still due: the last of them leads to AwaitChecksumLow. -/
theorem receive_payload {s : State} {len : Byte} (hlen : validLength len = true) (rs : List RxByte) (hne : rs ≠ [])
    (stored : List Byte) (last : Nat) (hgaps : noGaps s.cfg last rs)
    (hcount : stored.length + rs.length = len.toNat - Config.overhead) :
    receive rs (s.collecting len stored last) = .next
      { s.collecting len (stored ++ rs.map RxByte.byte) (lastTime s.cfg last rs) with state := .awaitChecksumLow } := by
  induction rs generalizing stored last with
  | nil => exact absurd rfl hne
  | cons r rs ih =>
    obtain ⟨hg, hrest⟩ := hgaps
    rw [List.length_cons] at hcount
    have hstep := exec_rxbyte_storeByte (b := r.byte) (stored := stored) hg (by omega) hlen
    rw [receive_cons rs hstep]
    cases rs with
    | nil => rw [if_pos (by simpa using hcount)]; rfl
    | cons r' rs' =>
      rw [if_neg (by rw [List.length_cons] at hcount; omega)]
      have hnext := ih (List.cons_ne_nil _ _) (stored ++ [r.byte]) (r.nowMs % 2 ^ s.cfg.timeW) hrest
        (by rw [List.length_append, List.length_singleton]; omega)
      rw [List.append_assoc] at hnext
      exact hnext

/-- R66: the low checksum byte, behind a payload of the length that the length byte says. -/
theorem exec_rxbyte_holdLow {s : State} {len lo : Byte} {payload : List Byte} {last now : Nat} (hg : ¬ gapAt s.cfg now last)
    (hlen : len.toNat = payload.length + Config.overhead) :
    exec (.rxbyte lo now) { s.collecting len payload last with state := .awaitChecksumLow } =
      .next (s.atLastByte payload lo (now % 2 ^ s.cfg.timeW)) := by
  have hbyte : BitVec.ofNat 8 (payload.length + Config.overhead) = len := by
    rw [← hlen, BitVec.ofNat_toNat, BitVec.setWidth_eq]
  rw [exec_rxbyte_noGap (i := .rxCkl lo) hg rfl, exec_rxCkl lo rfl, State.atLastByte, hbyte]
  simp [State.collecting, hlen]

/-- R60 to R67: a frame received in one burst is held whole when its last byte is processed. -/
theorem receive_frame {s : State} {rs : List RxByte} {len lo hi : Byte} {payload : List Byte} (hs : s.state ≠ .respondPending)
    (hburst : oneBurst s.cfg s.lastMs rs) (hbytes : rs.map RxByte.byte = len :: (payload ++ [lo, hi])) (hmin : payload ≠ [])
    (hlen : len.toNat = payload.length + Config.overhead) (hmax : len.toNat ≤ 32) :
    receive rs s = exec (.rxCkh hi) (s.atLastByte payload lo (lastTime s.cfg s.lastMs rs)) := by
  obtain ⟨r, rs, rfl, rfl, hrest⟩ := List.map_eq_cons_iff.1 hbytes
  obtain ⟨ps, cs, rfl, rfl, hck⟩ := List.map_eq_append_iff.1 hrest
  obtain ⟨rl, cs', rfl, rfl, hhi⟩ := List.map_eq_cons_iff.1 hck
  obtain ⟨rh, rfl, rfl⟩ := List.map_eq_singleton_iff.1 hhi
  obtain ⟨hgap, hgaps⟩ := hburst
  obtain ⟨hps, hlow, hhigh, -⟩ := (noGaps_append _ _ _ _).1 hgaps
  rw [List.length_map] at hlen
  have hpos : 0 < ps.length := List.length_pos_iff.2 (fun h => hmin (by rw [h]; rfl))
  have hvalid : validLength r.byte = true := (validLength_iff _).2 ⟨by simp only [Config.overhead] at hlen; omega, hmax⟩
  have hpayload := receive_payload (s := s) hvalid ps (List.length_pos_iff.1 hpos) [] _ hps
    (by simp only [Config.overhead] at hlen ⊢; simp; omega)
  rw [receive_cons _ (exec_rxbyte_startFrame hs hgap hvalid), receive_append hpayload,
    receive_cons _ (exec_rxbyte_holdLow hlow (by simpa using hlen)), receive_singleton,
    exec_rxbyte_noGap (i := .rxCkh rh.byte) hhigh rfl]
  simp [lastTime, lastTime_append, State.atLastByte]

/-! ### The receiver holding a frame -/

@[simp] theorem atLastByte_state (s : State) (payload : List Byte) (lo : Byte) (last : Nat) :
    (s.atLastByte payload lo last).state = .awaitChecksumHigh := rfl

theorem atLastByte_lengthByte (s : State) {len : Byte} {payload : List Byte} (lo : Byte) (last : Nat)
    (hlen : len.toNat = payload.length + Config.overhead) (hmax : len.toNat ≤ 32) :
    (s.atLastByte payload lo last).lengthByte = len := by
  apply lengthByte_eq
  simp only [Config.overhead] at hlen
  rw [State.atLastByte, BitVec.toNat_ofNat, Nat.mod_eq_of_lt (by omega), hlen]

theorem atLastByte_command (s : State) (cmd : Byte) (data : List Byte) (lo : Byte) (last : Nat) :
    (s.atLastByte (cmd :: data) lo last).command = cmd := by
  simp [State.atLastByte, State.command, overwrite_getElem]

theorem atLastByte_checksumMatches_iff (s : State) {len : Byte} {payload : List Byte} (lo hi : Byte) (last : Nat)
    (hlen : len.toNat = payload.length + Config.overhead) :
    (s.atLastByte payload lo last).checksumMatches hi = true ↔ le16 lo hi = checksum (len :: payload) := by
  have hbyte : BitVec.ofNat 8 (payload.length + Config.overhead) = len := by
    rw [← hlen, BitVec.ofNat_toNat, BitVec.setWidth_eq]
  rw [State.checksumMatches, beq_iff_eq, State.atLastByte, hbyte]

/-- R73: a frame with its checksum, received in one burst, goes to DISPATCH. -/
theorem receive_validFrame {s : State} {rs : List RxByte} {len : Byte} {payload : List Byte} (hs : s.state ≠ .respondPending)
    (hburst : oneBurst s.cfg s.lastMs rs) (hbytes : rs.map RxByte.byte = withChecksum (len :: payload)) (hmin : payload ≠ [])
    (hlen : len.toNat = payload.length + Config.overhead) (hmax : len.toNat ≤ 32) :
    receive rs s = exec .dispatch
      (s.atLastByte payload (lo8 (checksum (len :: payload))) (lastTime s.cfg s.lastMs rs)) := by
  rw [receive_frame hs hburst hbytes hmin hlen hmax]
  exact exec_rxCkh_match rfl ((atLastByte_checksumMatches_iff s _ _ _ hlen).2 (le16_lo8_hi8 _))

/-! ### The statements about whole frames -/

/-- Settles O35: the receiver holds the frame that was parsed, and DISPATCH runs what its header decodes to. -/
theorem wholeFrameRunsItsCommand : Obligations.WholeFrameRunsItsCommand := by
  intro s rs i data hs hburst hdec
  unfold decodeRxFrame at hdec
  split at hdec
  next p hp =>
    obtain ⟨len, cmd, lo, hi, hvalid, hlen, hhdr, hck, hbs⟩ := parseFrame_ok hp
    obtain ⟨rfl, rfl, hrest⟩ : decodeRx s.registered p.hdr = i ∧ p.data = data ∧ p.rest = [] := by simpa using hdec
    have hmax := ((validLength_iff len).1 hvalid).2
    have hlen' : len.toNat = (cmd :: p.data).length + Config.overhead := hlen
    have hbytes : rs.map RxByte.byte = withChecksum (len :: cmd :: p.data) := by
      rw [hbs, hrest, withChecksum, ← hck]
      simp
    have hrun := receive_validFrame hs hburst hbytes (List.cons_ne_nil _ _) hlen' hmax
    obtain ⟨t, ht⟩ := execDispatch_completes
      (s.atLastByte (cmd :: p.data) (lo8 (checksum (len :: cmd :: p.data))) (lastTime s.cfg s.lastMs rs)) rfl
    have hheld := (exec_decodeRx_header (atLastByte_state s _ _ _)).trans ht
    rw [atLastByte_lengthByte s _ _ hlen' hmax, atLastByte_command, ← hhdr] at hheld
    refine ⟨t, p.hdr, encodeHeader_decodeRx _ _, hrun.trans ht, ?_⟩
    rw [hhdr, lo8_headerOf, hi8_headerOf, ← hhdr]
    exact hheld
  next => cases hdec

/-- Settles O36: the checksum test fails on the frame that the receiver holds. -/
theorem badChecksumFrameIsDropped : Obligations.BadChecksumFrameIsDropped := by
  intro s rs len lo hi payload hs hburst hbytes hmin hmax hlen hsum
  have hmismatch : ¬ (s.atLastByte payload lo (lastTime s.cfg s.lastMs rs)).checksumMatches hi = true := by
    rw [atLastByte_checksumMatches_iff s lo hi _ hlen, checksum_eq_iff_sum (by rw [List.length_cons]; omega)]
    exact hsum
  rw [receive_frame hs hburst hbytes (List.length_pos_iff.1 hmin) hlen (by omega)]
  exact exec_rxCkh_mismatch rfl hmismatch

/-- R34, R49: the low byte of channel `i` is the data byte `2 * i` of the frame, the high byte the one behind it. -/
theorem channelWords_overwrite (p : Vector Byte Config.maxPayload) (c : Byte) (data : List Byte) (i : Fin Config.nChannels) :
    (channelWords (overwrite p (c :: data)))[i] =
      le16 (if h : 2 * i.val < data.length then data[2 * i.val] else p[1 + 2 * i.val]'(channelLow_inside i))
        (if h : 2 * i.val + 1 < data.length then data[2 * i.val + 1] else p[2 + 2 * i.val]'(channelBytes_inside i)) := by
  have hbyte (k : Nat) (hk : k + 1 < Config.maxPayload) :
      (overwrite p (c :: data))[k + 1] = if h : k < data.length then data[k] else p[k + 1] := by
    simp [overwrite_getElem]
  have hinside := channelBytes_inside i
  have hlow := hbyte (2 * i.val) (by omega)
  have hhigh := hbyte (2 * i.val + 1) (by omega)
  simp only [Nat.add_comm _ 1, ← Nat.add_assoc] at hlow hhigh
  simp [channelWords, channelWord, hlow, hhigh, Nat.add_comm _ 1]

/-- Settles O41: CHANNELS decodes the buffer in which the receiver holds the frame. -/
theorem shortChannelFrameReadsTheOldBuffer : Obligations.ShortChannelFrameReadsTheOldBuffer := by
  intro s rs data bs hs hburst hdata henc hbytes
  have hnum : (BitVec.ofNat 8 (data.length + 4)).toNat = data.length + 4 := by
    rw [BitVec.toNat_ofNat, Nat.mod_eq_of_lt (by omega)]
  obtain rfl : withChecksum (BitVec.ofNat 8 (data.length + 4) :: Config.cmdChannels :: data) = bs := by
    simpa [encode, encodeHeader] using henc
  have hrun := receive_validFrame hs hburst hbytes (List.cons_ne_nil _ _) hnum (by omega)
  have hchannel := (isChannelFrame_iff _).2 (atLastByte_command s Config.cmdChannels data
    (lo8 (checksum (BitVec.ofNat 8 (data.length + 4) :: Config.cmdChannels :: data))) (lastTime s.cfg s.lastMs rs))
  refine ⟨_, hrun.trans (exec_dispatch_channels rfl hchannel), rfl, ?_, ?_, ?_⟩
  · intro i h
    refine (channelWords_overwrite s.payload _ data i).trans ?_
    rw [dif_pos (by omega), dif_pos h]
  · intro i h
    refine (channelWords_overwrite s.payload _ data i).trans ?_
    rw [dif_pos (by omega), dif_neg (by omega)]
  · intro i h
    refine (channelWords_overwrite s.payload _ data i).trans ?_
    rw [dif_neg (by omega), dif_neg (by omega)]

/-! ### Polls and their replies together -/

/-- R47, R72: what is sent behind a body makes its sum 0xFFFF. -/
theorem checksum_sum {body : List Byte} (hlen : body.length ≤ 257) :
    (body.map BitVec.toNat).sum + ((hi8 (checksum body)).toNat * 256 + (lo8 (checksum body)).toNat) = 0xFFFF :=
  (checksum_eq_iff_sum hlen _ _).1 (le16_lo8_hi8 _)

theorem exec_emit_discover {s : State} {a : Nibble} (h : s.pendingIs Config.subDiscover a = true) :
    exec .emit s = .next (s.sendReply (discoverBody a)) := by
  obtain ⟨hs, hsub, rfl⟩ := (pendingIs_iff _ _ _).1 h
  rw [exec_emit hs, hsub]
  exact exec_replyDiscover h

theorem exec_emit_value {s : State} {a : Nibble} {k : Fin Config.maxSensors} (h : s.pendingIs Config.subValue a = true)
    (hk : a.toNat = k.val + 1) : exec .emit s = .next (s.sendReply (valueBody a s.sensorValue[k])) := by
  obtain ⟨hs, hsub, rfl⟩ := (pendingIs_iff _ _ _).1 h
  rw [exec_emit hs, hsub]
  exact exec_replyValue h hk

/-- Settles O54: the word written is the one REPLY.VALUE reads. -/
theorem valueReplyCarriesTheLastMeasurement : Obligations.ValueReplyCarriesTheLastMeasurement := by
  intro s v hs hsub hlow hreg hten
  obtain ⟨k, hk⟩ : ∃ k : Fin Config.maxSensors, s.pendAddr.toNat = k.val + 1 :=
    ⟨⟨s.pendAddr.toNat - 1, by simp only [Config.maxSensors]; omega⟩, by simp only; omega⟩
  have hwide : (s.pendAddr.setWidth 8).toNat = s.pendAddr.toNat := by simp; omega
  have hset := exec_setMeas (s := s) v (hwide.trans hk) (hwide.symm ▸ hreg)
  have hpend := (pendingIs_iff { s with sensorValue := s.sensorValue.set k v } Config.subValue s.pendAddr).2 ⟨hs, hsub, rfl⟩
  have hread : (s.sensorValue.set k v)[k] = v := Vector.getElem_set_self k.isLt
  have hemit := exec_emit_value hpend hk
  simp only [hread] at hemit
  refine ⟨_, _, lo8 (checksum (valueBody s.pendAddr v)), hi8 (checksum (valueBody s.pendAddr v)), hset, hemit, ?_, ?_⟩
  · simp [withChecksum, valueBody, cmdByte_eq_ofNat, lo8_eq_ofNat v, hi8_eq_ofNat v]
  · have hsum := checksum_sum (body := valueBody s.pendAddr v) (by simp [valueBody])
    rw [valueBody_sum] at hsum
    exact hsum

/-- Settles O55: the poll completes at its last byte, and REPLY.DISCOVER sends the bytes of the poll. -/
theorem discoverPollIsAnsweredByEmit : Obligations.DiscoverPollIsAnsweredByEmit := by
  intro s rs a hs hburst hlow hreg hbytes
  have hrun := receive_validFrame (len := Config.lenPoll) (payload := [cmdByte Config.subDiscover a]) hs hburst hbytes
    (List.cons_ne_nil _ _) rfl (by decide)
  have hcmd := atLastByte_command s (cmdByte Config.subDiscover a) []
    (lo8 (checksum [Config.lenPoll, cmdByte Config.subDiscover a])) (lastTime s.cfg s.lastMs rs)
  have hpoll := isSensorPoll_of_cmdByte (by decide) hcmd rfl hlow hreg
  refine ⟨_, _, hrun.trans (exec_dispatch_poll rfl hpoll), rfl, rfl, exec_emit_discover (a := a) ?_, ?_, rfl⟩
  · rw [pendingIs_iff, hcmd, subDiscover_inPlace]
    exact ⟨rfl, subOf_cmdByte _ _, addrOf_cmdByte _ _⟩
  · rw [State.sendReply_tx, withChecksum_discoverBody]
    rfl

end Sys2Proof.Machine
end
